-- ==== Sys2Proof/Word.lean ====
section
/-! DEFINITION. The widths of spec/00_scope.md R10: a word is 32 bits, a byte 8, a length 64. Every value of this
hardware is an unsigned integer of a stated width. -/

namespace Sys2Proof

/-- A word: "32-bit unsigned integer, the compression function's native unit" (spec/00, R7 and R10). -/
abbrev Word := BitVec 32

/-- A byte of the message, of a block or of the digest (R10). -/
abbrev Byte := BitVec 8

/-- A length: LEN, ML, PLEN and the port MSG_LEN (R10, R26, R27). -/
abbrev Length := BitVec 64

end Sys2Proof
end

