-- ==== Sys2Proof/Config.lean ====
section
/-! DEFINITION. The free values: what the spec leaves unspecified and the machine goes on with. Each is a constant
without a body, so nothing can be proved of the value it gives. A first argument `draw` is the machine's count of
free values already drawn (State.draws), so that two draws are unrelated. The platform's one parameter, MSG_CAP (R8),
is not here: State carries it (log 4). -/

namespace Sys2Proof.Config

/-- A 32-bit register after RST (R39, R156, U13); `slot` says which. Log 2. -/
opaque freeResetWord (draw slot : Nat) : Word

/-- A byte register after RST (R39, R156, U13); `slot` says which. Log 2. -/
opaque freeResetByte (draw slot : Nat) : Byte

/-- LEN, ML or PLEN after RST (R39, R156, U13); `slot` says which. Log 2. -/
opaque freeResetLength (draw slot : Nat) : Length

/-- The block index N after RST (R39, R156, U13). Log 2. -/
opaque freeResetBlockIndex (draw : Nat) : BitVec 58

/-- The step index T after RST: unspecified, but 0 to 79 (R32, R82). Log 2. -/
opaque freeResetStepIndex (draw : Nat) : Fin 80

/-- The byte a memory read gives at an address at or above MSG_CAP (R51, U5). Log 5. -/
opaque freeMessageByte (draw addr : Nat) : Byte

/-- PM(j) for j at or above PLEN, where R92 does not define it. Log 7. -/
opaque freePadByte (draw j : Nat) : Byte

/-- Byte `m` of what the host's read number `read` of DIGEST gives while STATUS is not DONE (R33, R162, U3). Log 8. -/
opaque freeDigestByte (read m : Nat) : Byte

/-- MSG_ADDR at the host's look number `look`, when no memory read is in progress (R36, U7). Log 9. -/
opaque freeMsgAddr (look : Nat) : BitVec 61

end Sys2Proof.Config
end

