-- ==== Sys2Proof/Syntax.lean ====
section
/-! DEFINITION. The instructions: the host command START and the fourteen micro-operations, one constructor for each
row of spec/opcode_table.json. -/

namespace Sys2Proof

/-- One row of the opcode table each. A micro-operation's operands are implicit (R79) but for the index T of WEXP and
of the four round operations, which is a field of the selector (R84 writes `WEXP t=<T>`): those constructors carry it
as it stands there, 7 bits (log 12). START's operand is the port MSG_LEN, which the command does not hold (R78). -/
inductive Instr where
  /-- The host command START, format H (R125). -/
  | start
  /-- PADLEN: the bit length, and the check that it fits (R90). -/
  | padlen
  /-- PADCALC: the padded length (R91). -/
  | padcalc
  /-- HINIT: the initial hash state (R110). -/
  | hinit
  /-- SPLIT: load block N (R100). -/
  | split
  /-- WLOAD: word extraction (R105). -/
  | wload
  /-- WEXP: schedule word `t` (R106). -/
  | wexp (t : BitVec 7)
  /-- LDWV: load the working variables (R111). -/
  | ldwv
  /-- RND0: round `t` with the choice function (R112). -/
  | rnd0 (t : BitVec 7)
  /-- RND1: round `t` with the parity function and K[1] (R113). -/
  | rnd1 (t : BitVec 7)
  /-- RND2: round `t` with the majority function (R114). -/
  | rnd2 (t : BitVec 7)
  /-- RND3: round `t` with the parity function and K[3] (R115). -/
  | rnd3 (t : BitVec 7)
  /-- HUPD: add the working variables into the hash state (R117). -/
  | hupd
  /-- NEXT: the next block, or out of the loop (R131). -/
  | next
  /-- SER: write the digest and end the run (R120). -/
  | ser
  deriving DecidableEq, Repr

end Sys2Proof
end

