-- ==== Sys2Proof/WellFormed.lean ====
section
/-! DEFINITION. Which instructions exist: the index an instruction carries lies in the range of T that selects it
(spec/30_encoding.md R80, R82; spec/opcode_table.json, the fields of WEXP and RND0 to RND3). -/

namespace Sys2Proof

/-- The index carried is one that selects this operation: T 16 to 79 for WEXP, twenty indices for each round
operation (R80, R106, R112 to R115). The other operations carry nothing. -/
def Instr.wellFormed : Instr → Bool
  | .wexp t => decide (16 ≤ t.toNat) && decide (t.toNat ≤ 79)
  | .rnd0 t => decide (t.toNat ≤ 19)
  | .rnd1 t => decide (20 ≤ t.toNat) && decide (t.toNat ≤ 39)
  | .rnd2 t => decide (40 ≤ t.toNat) && decide (t.toNat ≤ 59)
  | .rnd3 t => decide (60 ≤ t.toNat) && decide (t.toNat ≤ 79)
  | .start => true
  | .padlen => true
  | .padcalc => true
  | .hinit => true
  | .split => true
  | .wload => true
  | .ldwv => true
  | .hupd => true
  | .next => true
  | .ser => true

end Sys2Proof
end

