-- ==== Sys2Proof/Decode.lean ====
section
/-! DEFINITION. The encodings of spec/30_encoding.md sections 2 and 3: format H, the one-bit host command (R78), and
format U, the pair (PHASE, T) that selects a micro-operation (R79, R31, R80). The decoder is total and rejects by
name; the encoder stands after it. The 11-bit packing PPPPTTTTTTT is the table's notation (R79). -/

namespace Sys2Proof

/-- The twelve named values of PHASE (R31). -/
inductive Phase where
  | wait
  | padlen
  | padcalc
  | hinit
  | split
  | wload
  | wexp
  | ldwv
  | round
  | hupd
  | next
  | ser
  deriving DecidableEq, Repr

/-- The 4-bit code of a phase, as R31 numbers them. -/
def Phase.code : Phase → BitVec 4
  | .wait => 0x0
  | .padlen => 0x1
  | .padcalc => 0x2
  | .hinit => 0x3
  | .split => 0x4
  | .wload => 0x5
  | .wexp => 0x6
  | .ldwv => 0x7
  | .round => 0x8
  | .hupd => 0x9
  | .next => 0xA
  | .ser => 0xB

/-- The phase a 4-bit code names; the codes 0xC to 0xF are reserved and name none (R31, R82). -/
def Phase.ofCode (p : BitVec 4) : Option Phase :=
  match p.toNat with
  | 0 => some .wait
  | 1 => some .padlen
  | 2 => some .padcalc
  | 3 => some .hinit
  | 4 => some .split
  | 5 => some .wload
  | 6 => some .wexp
  | 7 => some .ldwv
  | 8 => some .round
  | 9 => some .hupd
  | 10 => some .next
  | 11 => some .ser
  | _ => none

/-- Why bits select no instruction. -/
inductive DecodeError where
  /-- Format H with START = 0: "no command; nothing happens" (R78). -/
  | noCommand
  /-- PHASE = PH_WAIT: "none; the sequencer is stopped" (R31). -/
  | sequencerStopped
  /-- PHASE 0xC to 0xF (R82). -/
  | reservedPhase
  /-- T 80 to 127 in any phase, or T 0 to 15 in PH_WEXP (R82). -/
  | unreachableIndex
  /-- A bit outside the format's field is 1: the format has no such field (R78, R79). -/
  | noSuchField
  deriving DecidableEq, Repr

/-- Round selection in PH_ROUND: the range of T, twenty indices each (R80). -/
def decodeRound (t : BitVec 7) : Except DecodeError Instr :=
  if t.toNat ≤ 19 then .ok (.rnd0 t)
  else if t.toNat ≤ 39 then .ok (.rnd1 t)
  else if t.toNat ≤ 59 then .ok (.rnd2 t)
  else if t.toNat ≤ 79 then .ok (.rnd3 t)
  else .error .unreachableIndex

/-- "The micro-operation performed next is a function of this pair alone" (R79): the table of R31 with the refinement
of R80. -/
def decodeSelector (p : BitVec 4) (t : BitVec 7) : Except DecodeError Instr :=
  match Phase.ofCode p with
  | none => .error .reservedPhase
  | some ph =>
    if 80 ≤ t.toNat then .error .unreachableIndex
    else
      match ph with
      | .wait => .error .sequencerStopped
      | .padlen => .ok .padlen
      | .padcalc => .ok .padcalc
      | .hinit => .ok .hinit
      | .split => .ok .split
      | .wload => .ok .wload
      | .wexp => if 16 ≤ t.toNat then .ok (.wexp t) else .error .unreachableIndex
      | .ldwv => .ok .ldwv
      | .round => decodeRound t
      | .hupd => .ok .hupd
      | .next => .ok .next
      | .ser => .ok .ser

/-- An instruction's bits: the two formats of R78 and R79. -/
inductive Encoded where
  /-- Format H, the port START. -/
  | h (start : BitVec 1)
  /-- Format U, PHASE and T. -/
  | u (phase : BitVec 4) (t : BitVec 7)
  deriving DecidableEq, Repr

/-- The decoder of both formats. -/
def decode : Encoded → Except DecodeError Instr
  | .h s => if s = 1#1 then .ok .start else .error .noCommand
  | .u p t => decodeSelector p t

/-- Bits numbered as spec/opcode_table.json numbers them: a row of one bit is format H, a row of eleven bits is format
U with T in bits 6 to 0 and PHASE in bits 10 to 7 (R79). `none`: a bit above the format's fields is 1. -/
def unpack (nbits w : Nat) : Option Encoded :=
  if nbits ≤ 8 then
    if w < 2 then some (.h (BitVec.ofNat 1 w)) else none
  else
    if w < 2048 then some (.u (BitVec.ofNat 4 (w / 128)) (BitVec.ofNat 7 w)) else none

/-- The decoder on a table word, rejecting by name. -/
def decodeWord (nbits w : Nat) : Except DecodeError Instr :=
  match unpack nbits w with
  | some e => decode e
  | none => .error .noSuchField

/-- The decoder on bytes, the first byte the lower bits: one byte is a format H word, two bytes a format U word; no
other length is an encoding of this hardware. -/
def decodeBytes : List Byte → Except DecodeError Instr
  | [b0] => decodeWord 8 b0.toNat
  | [b0, b1] => decodeWord 16 (b0.toNat + 256 * b1.toNat)
  | _ => .error .noSuchField

/-- The instruction the decoder reads from a table word (nbits is 8 for format H and 16 for format U). -/
def decodeTableWord (nbits w : Nat) : Option Instr :=
  match decodeWord nbits w with
  | .ok i => some i
  | .error _ => none

/-- The encoder, written from R31, R78, R79 and R80: the bits that select an instruction. Where the table says "T:
ignored" it gives T = 0 (log 12). -/
def encode : Instr → Encoded
  | .start => .h 1#1
  | .padlen => .u 0x1 0
  | .padcalc => .u 0x2 0
  | .hinit => .u 0x3 0
  | .split => .u 0x4 0
  | .wload => .u 0x5 0
  | .wexp t => .u 0x6 t
  | .ldwv => .u 0x7 0
  | .rnd0 t => .u 0x8 t
  | .rnd1 t => .u 0x8 t
  | .rnd2 t => .u 0x8 t
  | .rnd3 t => .u 0x8 t
  | .hupd => .u 0x9 0
  | .next => .u 0xA 0
  | .ser => .u 0xB 0

/-- How many bits the table gives a format, in whole bytes. -/
def Encoded.nbits : Encoded → Nat
  | .h _ => 8
  | .u _ _ => 16

/-- The table's word for an encoding: bit 0 is START, or PHASE in bits 10 to 7 and T in bits 6 to 0 (R79). -/
def Encoded.word : Encoded → Nat
  | .h s => s.toNat
  | .u p t => p.toNat * 128 + t.toNat

end Sys2Proof
end

