-- ==== Sys2Proof/Machine/State.lean ====
section
/-! DEFINITION. The state of the machine: every register of spec/10_state.md, the input pins, message memory, and the
platform's parameter. Plain data. Registers are raw bits of the widths the spec gives; STATUS has exactly the four
values of R28 and is their four names. -/

namespace Sys2Proof.Machine

/-- STATUS, "the only status flags of the hardware" (R28); its 2-bit codes are `Status.code` (Flags.lean). -/
inductive Status where
  /-- No run since reset. -/
  | idle
  /-- A run is in progress; the sequencer is stepping. -/
  | busy
  /-- The last run ended normally; DIGEST holds its digest. -/
  | done
  /-- The last run ended with the InvalidLength exception. -/
  | error
  deriving DecidableEq, Repr

/-- The input ports that the host drives (R35). MSG_DATA is not among them: it is what message memory answers inside a
read. The pins keep their values until the host changes them (log 3). -/
structure Pins where
  /-- RST, reset request (R155). -/
  rst : Bool
  /-- START, the command field (R78). -/
  start : Bool
  /-- MSG_LEN, read only in the step that accepts START (R35). -/
  msgLen : Length
  deriving DecidableEq, Repr

/-- Message memory: (address, byte) pairs in the canonical form `Memory.wf` of Ops.lean (R50). -/
abbrev Memory := List Host.Cell

/-- Everything the spec gives the machine (R20 to R33), its input pins (R35), the message memory it reads (R50), the
platform's parameter (R8), and one counter of the model's own. -/
structure State where
  /-- H[0..4], the hash state (R20). -/
  h : Vector Word 5
  /-- A, a working variable (R22). -/
  a : Word
  /-- B (R22). -/
  b : Word
  /-- C (R22). -/
  c : Word
  /-- D (R22). -/
  d : Word
  /-- E (R22). -/
  e : Word
  /-- W[0..79], the word schedule (R24). -/
  w : Vector Word 80
  /-- BLK[0..63], the block register (R25). -/
  blk : Vector Byte 64
  /-- DIGEST[0..19], the output register (R33); what the host reads is `readDigest` (HostPort.lean). -/
  digest : Vector Byte 20
  /-- LEN, the message length in bytes (R26). -/
  len : Length
  /-- ML, the message length in bits (R27). -/
  ml : Length
  /-- PLEN, the padded length in bytes (R27). -/
  plen : Length
  /-- N, the index of the current block (R29). -/
  n : BitVec 58
  /-- PHASE, the first half of the sequencer position (R30, R31). -/
  phase : BitVec 4
  /-- T, the second half (R30, R32). -/
  t : BitVec 7
  /-- STATUS (R28). -/
  status : Status
  /-- The input pins (R35). -/
  pins : Pins
  /-- Message memory, the host's (R50). -/
  msg : Memory
  /-- MSG_CAP, the parameter of the platform (R8): no step and no host move changes it (log 4). -/
  msgCap : BitVec 61
  /-- The model's own count of free values drawn (log 10). -/
  draws : Nat
  deriving DecidableEq, Repr

/-- Why the machine stops. No run from reset reaches either (R82, R133). -/
inductive Fault where
  /-- Raised by `step` when STATUS is BUSY and (PHASE, T) is one of the pairs R82 calls unreachable. Safe: R82 asks a
  model of raw bits for this fault. -/
  | unreachableSelector (phase : BitVec 4) (t : BitVec 7)
  /-- Raised by the meanings of WEXP and RND0 to RND3 on an ill-formed instruction, one whose index does not select
  it. Safe: the decoder gives no such instruction (R80, R82). -/
  | indexNotSelecting (t : BitVec 7)
  deriving DecidableEq, Repr

/-- What the model refuses. -/
inductive Refusal where
  /-- Raised by an arm of `exec` whose instruction has no meaning; no arm raises it. Safe. -/
  | notModelled (mnemonic : String)
  /-- Raised by the host's move that writes message memory while STATUS is BUSY: "a model gives the host no such move"
  (R160). Safe for the machine; that no host does it is an assumption about the host (log 14). -/
  | messageFrozen
  /-- Raised by the host's move that writes message memory at or above MSG_CAP, where the platform provides no byte
  (R8, R50). Safe. -/
  | beyondMsgCap
  deriving DecidableEq, Repr

/-- Right after reset (R39, R155, R156): STATUS = IDLE and PHASE = PH_WAIT. The spec leaves every other register
unspecified: each holds zero here, which is the model's choice (log 1, unsafe); a reset DURING a run gives free values
(`takeReset`, log 2). The pins are low (log 3), memory lists nothing (log 6), MSG_CAP is its default (R8). -/
def State.reset : State where
  h := Vector.replicate 5 0
  a := 0
  b := 0
  c := 0
  d := 0
  e := 0
  w := Vector.replicate 80 0
  blk := Vector.replicate 64 0
  digest := Vector.replicate 20 0
  len := 0
  ml := 0
  plen := 0
  n := 0
  phase := Phase.code .wait
  t := 0
  status := .idle
  pins := { rst := false, start := false, msgLen := 0 }
  msg := []
  msgCap := BitVec.allOnes 61
  draws := 0

end Sys2Proof.Machine
end

