-- ==== Sys2Proof/Machine/Ops.lean ====
section
/-! DEFINITION. The shared operations: the arithmetic of spec/00_scope.md section 4, message memory, the sequencer
position, the constants of R76, acceptance of START, the one exception (R142), reset (R155), and the selection of what
a step performs (R79). -/

namespace Sys2Proof.Machine

/-! ### Arithmetic (R11 to R15) -/

/-- Addition modulo 2^32, the carry discarded (R11). -/
def add32 (x y : Word) : Word := x + y

/-- Circular left shift by `n` mod 32, in the shift form R12 gives. -/
def rotl32 (x : Word) (n : Nat) : Word := (x <<< (n % 32)) ||| (x >>> (32 - n % 32))

/-- A word from four bytes, the first the most significant (R15). -/
def be32 (b0 b1 b2 b3 : Byte) : Word := b0 ++ b1 ++ b2 ++ b3

/-- Byte `m` of the `count`-byte big-endian form of `v` (R15): bits 8(count-1-m)+7 down to 8(count-1-m). -/
def byteBe {width : Nat} (v : BitVec width) (count m : Nat) : Byte := v.extractLsb' (8 * (count - 1 - m)) 8

/-! ### Constants (R76) -/

/-- IV, the initial hash state (R23, R76). -/
def IV : Vector Word 5 := #v[0x67452301, 0xEFCDAB89, 0x98BADCFE, 0x10325476, 0xC3D2E1F0]

/-- K[0], of RND0 (R76). -/
def K0 : Word := 0x5A827999
/-- K[1], of RND1 (R76). -/
def K1 : Word := 0x6ED9EBA1
/-- K[2], of RND2 (R76). -/
def K2 : Word := 0x8F1BBCDC
/-- K[3], of RND3 (R76). -/
def K3 : Word := 0xCA62C1D6

/-! ### Message memory (R50 to R53) -/

/-- What an address that memory does not list reads as. DESIGN CHOICE: the spec gives message memory no contents
before the host places a message (log 6, unsafe). -/
def Memory.unlisted : Byte := 0x00

/-- The byte memory holds at an address. -/
def Memory.read : Memory → Nat → Byte
  | [], _ => Memory.unlisted
  | (k, x) :: rest, addr => if k = addr then x else Memory.read rest addr

/-- Memory after the host puts `v` at an address; the canonical form is kept. -/
def Memory.write : Memory → Nat → Byte → Memory
  | [], addr, v => if v = Memory.unlisted then [] else [(addr, v)]
  | (k, x) :: rest, addr, v =>
    if k < addr then (k, x) :: Memory.write rest addr v
    else if k = addr then
      if v = Memory.unlisted then rest else (addr, v) :: rest
    else
      if v = Memory.unlisted then (k, x) :: rest else (addr, v) :: (k, x) :: rest

/-- The canonical form: addresses strictly rising and of 61 bits (R50), and no entry that says what an unlisted
address reads as anyway. -/
abbrev Memory.wf (m : Memory) : Prop :=
  List.Pairwise (fun c d => c.1 < d.1) m ∧ ∀ c ∈ m, c.1 < 2 ^ 61 ∧ c.2 ≠ Memory.unlisted

/-- MemRead(addr, 1) (R51): the byte at an address the platform provides; at or above MSG_CAP "the value is
unspecified", a free byte (log 5). -/
def memRead (s : State) (addr : Nat) : Byte :=
  if addr < s.msgCap.toNat then Memory.read s.msg addr else Config.freeMessageByte s.draws addr

/-! ### The sequencer position (R16, R30) -/

/-- `pc <- (PH_x)`: the phase, and T as it was (R16). -/
def State.goto (s : State) (ph : Phase) : State := { s with phase := ph.code }

/-- `pc <- (PH_x, T = v)` (R16). -/
def State.gotoAt (s : State) (ph : Phase) (v : BitVec 7) : State := { s with phase := ph.code, t := v }

/-- The end of a loop operation of index `t`: after index 79 to the phase `after`, else again with T = t + 1
(R106, R116). T never wraps (R32). -/
def State.loopNext (s : State) (t : BitVec 7) (again after : Phase) : State :=
  if t.toNat = 79 then s.goto after else s.gotoAt again (t + 1)

/-! ### Start of a run, the exception, reset -/

/-- What START writes when it is accepted: LEN, STATUS and PHASE (R125). -/
def beginRun (s : State) : State :=
  { s with len := s.pins.msgLen, status := .busy, phase := Phase.code .padlen }

/-- Taking the one exception, InvalidLength (R142): STATUS and PHASE, "and nothing else is written". There is no
handler and nothing is saved; it is left by START or by RST (R143), so no return stands beside it. -/
def raiseInvalidLength (s : State) : State :=
  { s with status := .error, phase := Phase.code .wait }

/-- A step with RST asserted (R155): STATUS = IDLE and PHASE = PH_WAIT. Every other register is unspecified after it
(R156, U13): a free value each, T within 0 to 79 (R32). Pins and message memory are the host's and stay (log 2).
That RST acts at a step and not between two is the model's choice (log 22). -/
def takeReset (s : State) : State :=
  { s with
    h := Vector.ofFn fun i => Config.freeResetWord s.draws i.val
    a := Config.freeResetWord s.draws 5
    b := Config.freeResetWord s.draws 6
    c := Config.freeResetWord s.draws 7
    d := Config.freeResetWord s.draws 8
    e := Config.freeResetWord s.draws 9
    w := Vector.ofFn fun i => Config.freeResetWord s.draws (10 + i.val)
    blk := Vector.ofFn fun i => Config.freeResetByte s.draws i.val
    digest := Vector.ofFn fun i => Config.freeResetByte s.draws (64 + i.val)
    len := Config.freeResetLength s.draws 0
    ml := Config.freeResetLength s.draws 1
    plen := Config.freeResetLength s.draws 2
    n := Config.freeResetBlockIndex s.draws
    t := BitVec.ofNat 7 (Config.freeResetStepIndex s.draws).val
    phase := Phase.code .wait
    status := .idle
    draws := s.draws + 1 }

/-! ### What a step performs -/

/-- The bits that select the next instruction: while STATUS is BUSY the sequencer position, START ignored (R126, R137);
else the port START (R78). -/
def State.selected (s : State) : Encoded :=
  if s.status = .busy then .u s.phase s.t else .h (BitVec.ofBool s.pins.start)

/-- The instruction the machine is about to perform, or why there is none. -/
def State.fetch (s : State) : Except DecodeError Instr := decode s.selected

/-- A step in which no instruction is selected: with START = 0 nothing happens (R78, R130), a stopped sequencer stays
(R31, R130), and an unreachable selector is a fault (R82). -/
def noInstruction (e : DecodeError) (s : State) : Host.Outcome State Fault Refusal :=
  match e with
  | .noCommand => .next s
  | .sequencerStopped => .next s
  | .reservedPhase => .fault (.unreachableSelector s.phase s.t)
  | .unreachableIndex => .fault (.unreachableSelector s.phase s.t)
  | .noSuchField => .fault (.unreachableSelector s.phase s.t)

/-- The state with an instruction put where the next step finds it: format H on the port START, with STATUS not BUSY;
format U in (PHASE, T), with STATUS = BUSY. RST is low in both (log 18). -/
def State.place (s : State) : Encoded → State
  | .h b =>
    if s.status = .busy then
      { s with status := .idle, phase := Phase.code .wait, pins := { s.pins with rst := false, start := b == 1#1 } }
    else { s with pins := { s.pins with rst := false, start := b == 1#1 } }
  | .u p t => { s with status := .busy, phase := p, t := t, pins := { s.pins with rst := false } }

end Sys2Proof.Machine
end

