-- ==== Sys2Proof/Machine/Flags.lean ====
section
/-! DEFINITION. STATUS, "the only status flags of the hardware" (R28): its codes, and when DIGEST and HEX are valid.
There are no condition codes and no carry or overflow flag. START, PADLEN on the exception, SER and RST write STATUS;
each does so in its own operation. -/

namespace Sys2Proof.Machine

/-- The 2-bit code of STATUS (R28). -/
def Status.code : Status → BitVec 2
  | .idle => 0
  | .busy => 1
  | .done => 2
  | .error => 3

/-- The STATUS a 2-bit code names: every code names one (R28). -/
def Status.ofCode (x : BitVec 2) : Status :=
  if x = 0 then .idle else if x = 1 then .busy else if x = 2 then .done else .error

/-- DIGEST and HEX are valid "only while STATUS = DONE" (R162). -/
def State.digestValid (s : State) : Bool := s.status == .done

/-- The end of a normal run: STATUS = DONE and PH_WAIT (R120). -/
def endRun (s : State) : State := { s with status := .done, phase := Phase.code .wait }

end Sys2Proof.Machine
end

