-- ==== Sys2Proof/Machine/Operands.lean ====
section
/-! DEFINITION. The operands, all implicit (R79): the padded-message byte PM (R92), the words of a block (R73, R105),
the schedule taps (R106), the round inputs (R112 to R116) and NBLK (R27). -/

namespace Sys2Proof.Machine

/-- NBLK = PLEN[63:6], the number of blocks of the run (R27). -/
def State.nblk (s : State) : BitVec 58 := s.plen.extractLsb' 6 58

/-- ZPAD, the number of zero bytes, in the byte form R91 gives for a data path. -/
def zpad (len : Length) : Nat :=
  let r := (len.toNat + 1) % 64
  if r ≤ 56 then 56 - r else 120 - r

/-- PM(j), byte `j` of the padded message (R92): message, marker, zero fill, length field, in that order. For
j >= PLEN it "is not defined": a free byte (log 7), which no run asks for (R100). -/
def padByte (s : State) (j : Nat) : Byte :=
  if s.plen.toNat ≤ j then Config.freePadByte s.draws j
  else if j < s.len.toNat then memRead s j
  else if j = s.len.toNat then 0x80
  else if j + 8 < s.plen.toNat then 0x00
  else byteBe s.ml 8 (j + 8 - s.plen.toNat)

/-- The block SPLIT loads: BLK[k] = PM(64 N + k) (R100). -/
def nextBlock (s : State) : Vector Byte 64 := Vector.ofFn fun k => padByte s (64 * s.n.toNat + k.val)

/-- Word `t` of a block, from bytes 4t to 4t+3 (R73, R105). -/
def blockWord (blk : Vector Byte 64) (t : Fin 16) : Word :=
  be32 (blk[4 * t.val]) (blk[4 * t.val + 1]) (blk[4 * t.val + 2]) (blk[4 * t.val + 3])

/-- The schedule after WLOAD: W[0..15] from the block, W[16..79] as they were (R105). -/
def loadWords (blk : Vector Byte 64) (w : Vector Word 80) : Vector Word 80 :=
  Vector.ofFn fun i => if hi : i.val < 16 then blockWord blk ⟨i.val, hi⟩ else w[i]

/-- The schedule recurrence at index `t`: taps t-3, t-8, t-14, t-16, rotated by one (R106). -/
def expandWord (w : Vector Word 80) (t : Nat) (ht : t < 80) : Word :=
  rotl32 (w[t - 3] ^^^ w[t - 8] ^^^ w[t - 14] ^^^ w[t - 16]) 1

/-- The choice function of RND0 (R112). -/
def fChoose (b c d : Word) : Word := (b &&& c) ||| (~~~b &&& d)

/-- The parity function of RND1 and RND3 (R113, R115). -/
def fParity (b c d : Word) : Word := b ^^^ c ^^^ d

/-- The majority function of RND2 (R114). -/
def fMajority (b c d : Word) : Word := (b &&& c) ||| (b &&& d) ||| (c &&& d)

/-- A round, common to RND0 to RND3: the function, the constant and the index are the operation's (R116). The reads
are all of the state before the operation. -/
def roundStep (f : Word → Word → Word → Word) (k : Word) (t : BitVec 7) (ht : t.toNat < 80) (s : State) : State :=
  { s with
    a := add32 (add32 (add32 (add32 (rotl32 s.a 5) (f s.b s.c s.d)) s.e) k) (s.w[t.toNat])
    b := s.a
    c := rotl32 s.b 30
    d := s.c
    e := s.d }.loopNext t .round .hupd

/-- The digest of a hash state: DIGEST[4i + m] = byte m of H[i], big-endian (R74, R120). -/
def serialize (h : Vector Word 5) : Vector Byte 20 :=
  Vector.ofFn fun j => byteBe (h[j.val / 4]) 4 (j.val % 4)

end Sys2Proof.Machine
end

