-- ==== Sys2Proof/Machine/Padder.lean ====
section
/-! DEFINITION. The padder's two operations (spec/40_padder.md). The padded-message function PM is `padByte` in
Operands.lean. -/

namespace Sys2Proof.Machine

/-- PADLEN (R90): raise InvalidLength when LEN[63:61] is not 0, else ML = LEN * 8 and on to PADCALC. -/
def execPadlen (s : State) : Host.Outcome State Fault Refusal :=
  if s.len.extractLsb' 61 3 ≠ 0 then .next (raiseInvalidLength s)
  else .next ({ s with ml := s.len <<< 3 }.goto .padcalc)

/-- PADCALC (R91): PLEN = LEN + 1 + ZPAD + 8, and on to HINIT. -/
def execPadcalc (s : State) : Host.Outcome State Fault Refusal :=
  .next ({ s with plen := BitVec.ofNat 64 (s.len.toNat + 1 + zpad s.len + 8) }.goto .hinit)

end Sys2Proof.Machine
end

