-- ==== Sys2Proof/Machine/Rounds.lean ====
section
/-! DEFINITION. The round-function pipeline's operations (spec/43_round_function.md). -/

namespace Sys2Proof.Machine

/-- HINIT (R110): H = IV, N = 0, and on to SPLIT. -/
def execHinit (s : State) : Host.Outcome State Fault Refusal :=
  .next ({ s with h := IV, n := 0 }.goto .split)

/-- LDWV (R111): A to E from H, and to the rounds with T = 0. -/
def execLdwv (s : State) : Host.Outcome State Fault Refusal :=
  .next ({ s with a := s.h[0], b := s.h[1], c := s.h[2], d := s.h[3], e := s.h[4] }.gotoAt .round 0)

/-- RND0 (R112, R116): the choice function and K[0], t in 0 to 19. -/
def execRnd0 (t : BitVec 7) (s : State) : Host.Outcome State Fault Refusal :=
  if ht : t.toNat ≤ 19 then .next (roundStep fChoose K0 t (by omega) s) else .fault (.indexNotSelecting t)

/-- RND1 (R113, R116): the parity function and K[1], t in 20 to 39. -/
def execRnd1 (t : BitVec 7) (s : State) : Host.Outcome State Fault Refusal :=
  if ht : 20 ≤ t.toNat ∧ t.toNat ≤ 39 then .next (roundStep fParity K1 t (by omega) s)
  else .fault (.indexNotSelecting t)

/-- RND2 (R114, R116): the majority function and K[2], t in 40 to 59. -/
def execRnd2 (t : BitVec 7) (s : State) : Host.Outcome State Fault Refusal :=
  if ht : 40 ≤ t.toNat ∧ t.toNat ≤ 59 then .next (roundStep fMajority K2 t (by omega) s)
  else .fault (.indexNotSelecting t)

/-- RND3 (R115, R116): the parity function and K[3], t in 60 to 79. -/
def execRnd3 (t : BitVec 7) (s : State) : Host.Outcome State Fault Refusal :=
  if ht : 60 ≤ t.toNat ∧ t.toNat ≤ 79 then .next (roundStep fParity K3 t (by omega) s)
  else .fault (.indexNotSelecting t)

/-- HUPD (R117): H[i] = H[i] + the working variable, five independent additions, and on to NEXT. -/
def execHupd (s : State) : Host.Outcome State Fault Refusal :=
  .next ({ s with
    h := #v[add32 s.h[0] s.a, add32 s.h[1] s.b, add32 s.h[2] s.c, add32 s.h[3] s.d, add32 s.h[4] s.e] }.goto .next)

end Sys2Proof.Machine
end

