-- ==== Sys2Proof/Machine/Schedule.lean ====
section
/-! DEFINITION. The word-schedule expander's operations (spec/42_word_schedule.md). -/

namespace Sys2Proof.Machine

/-- WLOAD (R105): W[0..15] from the block, and to WEXP with T = 16. -/
def execWload (s : State) : Host.Outcome State Fault Refusal :=
  .next ({ s with w := loadWords s.blk s.w }.gotoAt .wexp 16)

/-- WEXP (R106): W[t], for t in 16 to 79; after 79 to LDWV. -/
def execWexp (t : BitVec 7) (s : State) : Host.Outcome State Fault Refusal :=
  if ht : 16 ≤ t.toNat ∧ t.toNat ≤ 79 then
    .next ({ s with w := s.w.set t.toNat (expandWord s.w t.toNat (by omega)) (by omega) }.loopNext t .wexp .ldwv)
  else .fault (.indexNotSelecting t)

end Sys2Proof.Machine
end

