-- ==== Sys2Proof/Machine/Sequencer.lean ====
section
/-! DEFINITION. The host command START, the loop operation NEXT (spec/45_sequencer_and_host.md) and the last operation
of a run, SER (spec/44_serializer.md). -/

namespace Sys2Proof.Machine

/-- START (R125): begin a run when STATUS is not BUSY; while BUSY "nothing happens" (R126). -/
def execStart (s : State) : Host.Outcome State Fault Refusal :=
  if s.status = .busy then .next s else .next (beginRun s)

/-- NEXT (R131): N + 1 and back to SPLIT while N + 1 < NBLK, else on to SER. The comparison is of integers. -/
def execNext (s : State) : Host.Outcome State Fault Refusal :=
  if s.n.toNat + 1 < s.nblk.toNat then .next ({ s with n := s.n + 1 }.goto .split) else .next (s.goto .ser)

/-- SER (R120): all twenty bytes of DIGEST, with STATUS = DONE in the same operation. -/
def execSer (s : State) : Host.Outcome State Fault Refusal :=
  .next (endRun { s with digest := serialize s.h })

end Sys2Proof.Machine
end

