-- ==== Sys2Proof/Machine/Splitter.lean ====
section
/-! DEFINITION. The block splitter's operation (spec/41_block_splitter.md), the only reader of message memory. -/

namespace Sys2Proof.Machine

/-- SPLIT (R100): all 64 bytes of block N, and on to WLOAD. The model's draw counter moves on, so that a free byte of
one block is unrelated to those of another (log 5, log 7, log 10). -/
def execSplit (s : State) : Host.Outcome State Fault Refusal :=
  .next ({ s with blk := nextBlock s, draws := s.draws + 1 }.goto .wload)

end Sys2Proof.Machine
end

