-- ==== Sys2Proof/Machine/Dispatch.lean ====
section
/-! DEFINITION. What each instruction does: one arm a constructor, each a call of that instruction's own meaning. -/

namespace Sys2Proof.Machine

/-- The meaning of every instruction. -/
def exec (i : Instr) (s : State) : Host.Outcome State Fault Refusal :=
  match i with
  | .start => Sys2Proof.Machine.execStart s
  | .padlen => Sys2Proof.Machine.execPadlen s
  | .padcalc => Sys2Proof.Machine.execPadcalc s
  | .hinit => Sys2Proof.Machine.execHinit s
  | .split => Sys2Proof.Machine.execSplit s
  | .wload => Sys2Proof.Machine.execWload s
  | .wexp t => Sys2Proof.Machine.execWexp t s
  | .ldwv => Sys2Proof.Machine.execLdwv s
  | .rnd0 t => Sys2Proof.Machine.execRnd0 t s
  | .rnd1 t => Sys2Proof.Machine.execRnd1 t s
  | .rnd2 t => Sys2Proof.Machine.execRnd2 t s
  | .rnd3 t => Sys2Proof.Machine.execRnd3 t s
  | .hupd => Sys2Proof.Machine.execHupd s
  | .next => Sys2Proof.Machine.execNext s
  | .ser => Sys2Proof.Machine.execSer s

end Sys2Proof.Machine
end

