-- ==== Sys2Proof/Machine/Step.lean ====
section
/-! DEFINITION. One step of the machine: reset if RST is asserted, else the instruction the position or the port START
selects. -/

namespace Sys2Proof.Machine

/-- One step. "RST has priority over everything" (R155); then the selected instruction is performed (R79, R125, R137),
and where none is selected, `noInstruction` says what happens. -/
def step (s : State) : Host.Outcome State Fault Refusal :=
  if s.pins.rst then .next (takeReset s)
  else
    match s.fetch with
    | .ok i => exec i s
    | .error e => noInstruction e s

/-- The state with a table word placed so that the next step runs it (log 18). A word with a bit outside the format's
fields cannot be placed and leaves the state as it is. -/
def State.withFetchWord (s : State) (nbits w : Nat) : State :=
  match unpack nbits w with
  | some e => s.place e
  | none => s

end Sys2Proof.Machine
end

