-- ==== Sys2Proof/Machine/Digest.lean ====
section
/-! DEFINITION. What a run computes, as pure functions of a message (R83, R96, R101, R107, R119, R134): pad, split,
schedule, compress, hash. The step function does not use them; claims compare the machine with them. -/

namespace Sys2Proof.Machine

/-- The padded length in closed form: the smallest multiple of 64 not less than L + 9 (R94). -/
def paddedLength (len : Nat) : Nat := 64 * ((len + 72) / 64)

/-- The length field: a bit length as 8 bytes, big-endian (R72). -/
def lengthField (bits : Nat) : List Byte := (List.range 8).map fun m => BitVec.ofNat 8 (bits / 256 ^ (7 - m))

/-- `pad` (R71, R96): message, marker, zero fill, length field. -/
def pad (m : List Byte) : List Byte :=
  m ++ [0x80] ++ List.replicate (paddedLength m.length - m.length - 9) 0x00 ++ lengthField (8 * m.length)

/-- Block `n` of a padded message (R101). -/
def blockOf (padded : List Byte) (n : Nat) : List Byte := (padded.drop (64 * n)).take 64

/-- `split` (R101): the blocks, in increasing order. -/
def blocks (m : List Byte) : List (List Byte) := (List.range (paddedLength m.length / 64)).map (blockOf (pad m))

/-- The sixteen words of a block (R73). The default is not met: a block has 64 bytes. -/
def wordsOf (blk : List Byte) : List Word :=
  (List.range 16).map fun t =>
    be32 (blk.getD (4 * t) 0) (blk.getD (4 * t + 1) 0) (blk.getD (4 * t + 2) 0) (blk.getD (4 * t + 3) 0)

/-- `k` more words of the recurrence at the end of a list of at least sixteen (R106). -/
def extendSchedule : Nat → List Word → List Word
  | 0, ws => ws
  | k + 1, ws =>
    let t := ws.length
    extendSchedule k
      (ws ++ [rotl32 (ws.getD (t - 3) 0 ^^^ ws.getD (t - 8) 0 ^^^ ws.getD (t - 14) 0 ^^^ ws.getD (t - 16) 0) 1])

/-- The schedule of a block, 80 words (R107). -/
def schedule (blk : List Byte) : List Word := extendSchedule 64 (wordsOf blk)

/-- f of round `t`, by the ranges of R80. -/
def roundF (t : Nat) (b c d : Word) : Word :=
  if t < 20 then fChoose b c d else if t < 40 then fParity b c d else if t < 60 then fMajority b c d
  else fParity b c d

/-- k of round `t`, by the ranges of R80. -/
def roundK (t : Nat) : Word := if t < 20 then K0 else if t < 40 then K1 else if t < 60 then K2 else K3

/-- Round `t` on the five working variables A to E, given as a vector (R116). -/
def roundOn (ws : List Word) (v : Vector Word 5) (t : Nat) : Vector Word 5 :=
  #v[rotl32 v[0] 5 + roundF t v[1] v[2] v[3] + v[4] + roundK t + ws.getD t 0, v[0], rotl32 v[1] 30, v[2], v[3]]

/-- The eighty rounds of a block. -/
def rounds (ws : List Word) (v : Vector Word 5) : Vector Word 5 := (List.range 80).foldl (roundOn ws) v

/-- `compress` (R119): the new hash state from a block and the old one. -/
def compress (h : Vector Word 5) (blk : List Byte) : Vector Word 5 :=
  Vector.zipWith (· + ·) h (rounds (schedule blk) h)

/-- `hash` (R134): fold compress over the blocks from IV, then serialize. -/
def hashMessage (m : List Byte) : Vector Byte 20 := serialize ((blocks m).foldl compress IV)

/-- The message of length `len` that memory holds: addresses 0 to len - 1 (R50, R70). -/
def message (mem : Memory) (len : Nat) : List Byte := (List.range len).map (Memory.read mem)

end Sys2Proof.Machine
end

