-- ==== Sys2Proof/Machine/HostPort.lean ====
section
/-! DEFINITION. The host's side (R137): what it reads at the output ports (R36) and what it may do between two steps of
the machine. -/

namespace Sys2Proof.Machine

/-- The port STATUS, readable at any time (R28, R36). -/
def readStatus (s : State) : BitVec 2 := s.status.code

/-- What the host's read number `read` of DIGEST gives: the register when STATUS = DONE, any bytes otherwise (R33,
R128, R162; log 8). Reading changes nothing (R128). -/
def readDigest (read : Nat) (s : State) : Vector Byte 20 :=
  if s.digestValid then s.digest else Vector.ofFn fun m => Config.freeDigestByte read m.val

/-- The ASCII code of a lowercase hexadecimal digit (R75, R122; the code is from general knowledge, G1; log 20). -/
def hexChar (v : BitVec 4) : Byte := if v.toNat < 10 then 0x30 + v.zeroExtend 8 else 0x61 + (v.zeroExtend 8 - 10)

/-- The two characters of each byte, the high nibble first (R75, R122). -/
def hexView (digest : Vector Byte 20) : Vector Byte 40 :=
  Vector.ofFn fun i =>
    if i.val % 2 = 0 then hexChar ((digest[i.val / 2]).extractLsb' 4 4)
    else hexChar ((digest[i.val / 2]).extractLsb' 0 4)

/-- The port HEX: it "follows DIGEST at all times" (R34, R122). -/
def readHex (read : Nat) (s : State) : Vector Byte 40 := hexView (readDigest read s)

/-- The port MSG_ADDR between two steps: no memory read is in progress there (R60), so it is any value (R36; log 9). -/
def readMsgAddr (look : Nat) (_s : State) : BitVec 61 := Config.freeMsgAddr look

/-- The port MSG_DATA while the hardware reads address `addr` (R35, R51). -/
def msgData (s : State) (addr : Nat) : Byte := memRead s addr

/-- What the host can do between two steps (R137). -/
inductive HostMove where
  /-- Drive RST, START and MSG_LEN (R35); a step samples them (log 3, log 22). -/
  | setPins (p : Pins)
  /-- Put a byte into message memory (R137, R159). -/
  | writeMessage (addr : BitVec 61) (v : Byte)
  /-- Read STATUS, DIGEST or HEX: "no side effect" (R128). -/
  | readPorts
  deriving DecidableEq, Repr

/-- The effect of a host move. Message memory is written only while STATUS is not BUSY (R137, R160; log 14) and only
where the platform provides it (R8). DESIGN CHOICE (log 22): the spec chose no reset synchronisation scheme
(92_eei_decisions.md), and here a move that drives RST writes the pin alone; the next step samples it. -/
def hostMove (m : HostMove) (s : State) : Host.Outcome State Fault Refusal :=
  match m with
  | .setPins p => .next { s with pins := p }
  | .writeMessage addr v =>
    if s.status = .busy then .refused .messageFrozen
    else if s.msgCap.toNat ≤ addr.toNat then .refused .beyondMsgCap
    else .next { s with msg := Memory.write s.msg addr.toNat v }
  | .readPorts => .next s

end Sys2Proof.Machine
end

