-- ==== Sys2Proof/Safety.lean ====
section
/-! DEFINITION. What holds of the machine at every step (R31, R32, R133), and runs with a host that drives the pins. -/

namespace Sys2Proof.Machine

/-- The phases from PH_PADCALC on, after the length has been checked (R133): codes 0x2 to 0xB. -/
def State.pastPadlen (s : State) : Prop := 2 ≤ s.phase.toNat

/-- The phases from PH_HINIT on, after PADCALC (R133). -/
def State.pastPadcalc (s : State) : Prop := 3 ≤ s.phase.toNat

/-- From PH_SPLIT to PH_NEXT (R133). -/
def State.inBlockLoop (s : State) : Prop := 4 ≤ s.phase.toNat ∧ s.phase.toNat ≤ 10

/-- The invariants of the position, "true after every step" (R133, with R31 and R32), and the canonical form of
memory. -/
structure State.Inv (s : State) : Prop where
  /-- Message memory is in canonical form (log 6). -/
  memory : Memory.wf s.msg
  /-- PHASE is one of the twelve named values (R31, R82). -/
  phase : s.phase.toNat ≤ 11
  /-- T <= 79 (R32). -/
  index : s.t.toNat ≤ 79
  /-- "STATUS = BUSY exactly when PHASE is not PH_WAIT". -/
  busy : s.status = .busy ↔ s.phase ≠ Phase.code .wait
  /-- "in PH_WEXP, 16 <= T". -/
  expanding : s.phase = Phase.code .wexp → 16 ≤ s.t.toNat
  /-- "from PH_PADCALC on, LEN < 2^61". -/
  length : s.pastPadlen → s.len.toNat < 2 ^ 61
  /-- "and ML = 8 · LEN". -/
  bits : s.pastPadlen → s.ml.toNat = 8 * s.len.toNat
  /-- "from PH_HINIT on, PLEN = 64 · floor((LEN + 72) / 64)". -/
  padded : s.pastPadcalc → s.plen.toNat = 64 * ((s.len.toNat + 72) / 64)
  /-- "from PH_SPLIT to PH_NEXT, N < NBLK". -/
  block : s.inBlockLoop → s.n.toNat < s.plen.toNat / 64

/-- A run of one step for each entry, the host driving the pins of each step (R35, R137). It stops at the first fault
or refusal. -/
def runWith : List Pins → State → Host.Outcome State Fault Refusal
  | [], s => .next s
  | p :: ps, s =>
    match step { s with pins := p } with
    | .next s' => runWith ps s'
    | .fault r => .fault r
    | .refused r => .refused r

/-- The host does not assert RST in any of these steps. -/
def noReset (ps : List Pins) : Prop := ∀ p ∈ ps, p.rst = false

/-- A run may begin: STATUS is not BUSY, and the pins give START = 1 with a length and RST low (R125, R159). -/
def startPins (len : Length) : Pins := { rst := false, start := true, msgLen := len }

end Sys2Proof.Machine
end

