-- ==== Sys2Proof/Certificates/Slice0/Obligations.lean ====
section
/-! DEFINITION. The statements for the provers. An instruction's statement says that it completes, what each register
it writes becomes, and its frame: `s' = { s with x := s'.x, … }` says that every register, pin and byte of memory not
named there is as it was. `selects` clauses say which selector performs it (R79). -/

open Sys2Proof Sys2Proof.Machine

/-! ### Arithmetic -/

/-- R11: add32 is addition modulo 2^32, associative and commutative. -/
def Obligations.Add32IsAdditionModulo : Prop :=
  ∀ x y z : Word,
    (add32 x y).toNat = (x.toNat + y.toNat) % 2 ^ 32 ∧ add32 x y = add32 y x ∧
    add32 (add32 x y) z = add32 x (add32 y z)

/-- R12: rotl32 bit by bit, by any count, the count taken mod 32; and its shift form. -/
def Obligations.Rotl32RotatesEveryBit : Prop :=
  ∀ (x : Word) (n : Nat),
    (∀ i < 32, (rotl32 x n).getLsbD i = x.getLsbD ((i + 32 - n % 32) % 32)) ∧
    (n % 32 = 0 → rotl32 x n = x) ∧
    (n % 32 ≠ 0 →
      (rotl32 x n).toNat = (x.toNat * 2 ^ (n % 32) % 2 ^ 32) ||| (x.toNat / 2 ^ (32 - n % 32)))

/-- R15: be32 as a number, byte_be as a slice, and the round trip of a word. -/
def Obligations.Be32AssemblesAndByteBeSlices : Prop :=
  (∀ b0 b1 b2 b3 : Byte,
    (be32 b0 b1 b2 b3).toNat = b0.toNat * 2 ^ 24 + b1.toNat * 2 ^ 16 + b2.toNat * 2 ^ 8 + b3.toNat) ∧
  (∀ (count m : Nat) (v : BitVec (8 * count)), m < count →
    (byteBe v count m).toNat = v.toNat / 2 ^ (8 * (count - 1 - m)) % 256) ∧
  (∀ w : Word, be32 (byteBe w 4 0) (byteBe w 4 1) (byteBe w 4 2) (byteBe w 4 3) = w)

/-! ### Encoding -/

/-- Words written out from R31, R78, R79 and R80 decode to the operations they stand for. -/
def Obligations.TableWordsDecode : Prop :=
  decodeTableWord 8 0b1 = some .start ∧ decodeTableWord 8 0b0 = none ∧
  decodeTableWord 16 0b0001_0000000 = some .padlen ∧ decodeTableWord 16 0b0100_0000101 = some .split ∧
  decodeTableWord 16 0b0110_0010000 = some (.wexp 16) ∧ decodeTableWord 16 0b0110_1001111 = some (.wexp 79) ∧
  decodeTableWord 16 0b1000_0010011 = some (.rnd0 19) ∧ decodeTableWord 16 0b1000_0010100 = some (.rnd1 20) ∧
  decodeTableWord 16 0b1000_0111011 = some (.rnd2 59) ∧ decodeTableWord 16 0b1000_0111100 = some (.rnd3 60) ∧
  decodeTableWord 16 0b1011_0000000 = some .ser ∧ decodeTableWord 16 0b0110_0001111 = none ∧
  decodeTableWord 16 0b1000_1010000 = none ∧ decodeTableWord 16 0b1100_0000000 = none

/-- Decoding an encoded well-formed instruction gives it back, every instruction at every index, in the bits of the
format and in the table's word. -/
def Obligations.DecodeOfEncodeIsIdentity : Prop :=
  ∀ i : Instr, i.wellFormed = true →
    decode (encode i) = .ok i ∧ decodeTableWord (encode i).nbits (encode i).word = some i

/-- What the decoder gives is well formed, and its encoding is the selector read, up to the T that a row ignores. -/
def Obligations.DecodedSelectorIsEncoding : Prop :=
  ∀ (p : BitVec 4) (t : BitVec 7) (i : Instr), decode (.u p t) = .ok i →
    i.wellFormed = true ∧ t.toNat ≤ 79 ∧
    (encode i = .u p t ∨ (encode i = .u p 0 ∧ p ≠ Phase.code .wexp ∧ p ≠ Phase.code .round))

/-- R82: while the sequencer steps, exactly the unreachable selectors fault (the model keeps raw bits, log 11), and no
step from a state of the invariant leads to one (which R82 marks as derived). -/
def Obligations.UnreachableSelectorsFault : Prop :=
  (∀ s : State, s.pins.rst = false → s.status = .busy →
    ((12 ≤ s.phase.toNat ∨ 80 ≤ s.t.toNat ∨ (s.phase = 0x6 ∧ s.t.toNat < 16)) ↔
      step s = .fault (.unreachableSelector s.phase s.t))) ∧
  (∀ s s' : State, s.Inv → step s = .next s' →
    ¬ (12 ≤ s'.phase.toNat ∨ 80 ≤ s'.t.toNat ∨ (s'.phase = 0x6 ∧ s'.t.toNat < 16)))

/-- R80: in PH_ROUND the range of T selects the operation, with its f and its k. -/
def Obligations.RoundSelectedByRange : Prop :=
  ∀ (s : State) (t : BitVec 7) (ht : t.toNat ≤ 79),
    (t.toNat ≤ 19 → decode (.u 0x8 t) = .ok (.rnd0 t) ∧ exec (.rnd0 t) s =
      .next (roundStep (fun b c d => (b &&& c) ||| (~~~b &&& d)) 0x5A827999 t (by omega) s)) ∧
    (20 ≤ t.toNat → t.toNat ≤ 39 → decode (.u 0x8 t) = .ok (.rnd1 t) ∧ exec (.rnd1 t) s =
      .next (roundStep (fun b c d => b ^^^ c ^^^ d) 0x6ED9EBA1 t (by omega) s)) ∧
    (40 ≤ t.toNat → t.toNat ≤ 59 → decode (.u 0x8 t) = .ok (.rnd2 t) ∧ exec (.rnd2 t) s =
      .next (roundStep (fun b c d => (b &&& c) ||| (b &&& d) ||| (c &&& d)) 0x8F1BBCDC t (by omega) s)) ∧
    (60 ≤ t.toNat → decode (.u 0x8 t) = .ok (.rnd3 t) ∧ exec (.rnd3 t) s =
      .next (roundStep (fun b c d => b ^^^ c ^^^ d) 0xCA62C1D6 t (by omega) s))

/-- An instruction whose index does not select it is never performed (log 12). -/
def Obligations.IllFormedIndexFaults : Prop :=
  ∀ (t : BitVec 7) (s : State),
    (Instr.wellFormed (.wexp t) = false → exec (.wexp t) s = .fault (.indexNotSelecting t)) ∧
    (Instr.wellFormed (.rnd0 t) = false → exec (.rnd0 t) s = .fault (.indexNotSelecting t)) ∧
    (Instr.wellFormed (.rnd1 t) = false → exec (.rnd1 t) s = .fault (.indexNotSelecting t)) ∧
    (Instr.wellFormed (.rnd2 t) = false → exec (.rnd2 t) s = .fault (.indexNotSelecting t)) ∧
    (Instr.wellFormed (.rnd3 t) = false → exec (.rnd3 t) s = .fault (.indexNotSelecting t))

/-! ### Reset and the step -/

/-- The two registers whose reset value the spec gives, in the state right after reset (R156); DIGEST is not valid
there. The other fields of State.reset are the model's choice (log 1) and nothing is said of them. -/
def Obligations.PowerOnStateIsIdle : Prop :=
  readStatus State.reset = 0 ∧ State.reset.phase = 0x0 ∧ State.reset.digestValid = false

/-- R155: RST wins over any instruction and over START, at any time; after it the machine waits for START. What the
registers hold is free (log 2); the pins and message memory are the host's and stay. -/
def Obligations.ResetOverridesEverything : Prop :=
  ∀ s : State, s.pins.rst = true → ∃ s', step s = .next s' ∧
    s'.status = .idle ∧ s'.phase = 0x0 ∧ s'.digestValid = false ∧ s'.t.toNat ≤ 79 ∧
    s'.pins = s.pins ∧ s'.msg = s.msg ∧ s'.msgCap = s.msgCap ∧
    ∀ p : Pins, p.rst = false → p.start = false → step { s' with pins := p } = .next { s' with pins := p }

/-- A step with RST low performs exactly the instruction selected: while BUSY the one the position (PHASE, T) decodes
to, else START when the port is 1. Nothing is added around the meaning. -/
def Obligations.StepRunsDecodedInstruction : Prop :=
  ∀ s : State, s.pins.rst = false →
    (∀ i, s.status = .busy → decode (.u s.phase s.t) = .ok i → step s = exec i s) ∧
    (s.status ≠ .busy → s.pins.start = true → step s = exec .start s)

/-- With no run, no START and no RST nothing changes: an ended run keeps STATUS and its digest, an error stays. -/
def Obligations.IdleMachineHoldsItsState : Prop :=
  ∀ s : State, s.pins.rst = false → s.status ≠ .busy → s.pins.start = false → step s = .next s

/-- R125: START begins a run whenever STATUS is not BUSY. -/
def Obligations.StartBeginsRun : Prop :=
  decode (.h 1) = .ok .start ∧
  ∀ s : State, s.status ≠ .busy → ∃ s', exec .start s = .next s' ∧
    s'.len = s.pins.msgLen ∧ s'.status = .busy ∧ s'.phase = 0x1 ∧ s'.digestValid = false ∧
    s' = { s with len := s'.len, status := s'.status, phase := s'.phase }

/-- R126: while BUSY the command has no effect, and a step does the same whatever START and MSG_LEN are. -/
def Obligations.StartWhileBusyIsIgnored : Prop :=
  ∀ (s : State) (p q : Pins), s.status = .busy → p.rst = false → q.rst = false →
    exec .start s = .next s ∧
    (∀ s', step { s with pins := p } = .next s' → step { s with pins := q } = .next { s' with pins := q }) ∧
    (∀ r, step { s with pins := p } = .fault r → step { s with pins := q } = .fault r)

/-! ### The padder -/

/-- R90: PADLEN writes ML = 8 LEN, or raises InvalidLength exactly when LEN >= 2^61. -/
def Obligations.PadlenChecksAndScalesLength : Prop :=
  (∀ t : BitVec 7, t.toNat ≤ 79 → decode (.u 0x1 t) = .ok .padlen) ∧
  (∀ s : State, s.len.toNat < 2 ^ 61 → ∃ s', exec .padlen s = .next s' ∧
    s'.ml.toNat = 8 * s.len.toNat ∧ s'.phase = 0x2 ∧ s' = { s with ml := s'.ml, phase := s'.phase }) ∧
  (∀ s : State, 2 ^ 61 ≤ s.len.toNat → exec .padlen s = .next (raiseInvalidLength s))

/-- R142: entry of the exception writes STATUS and PHASE and nothing else; the host reads ERROR and no digest; no byte
of message memory has been read (any memory gives the same). -/
def Obligations.InvalidLengthEntryIsPrecise : Prop :=
  ∀ s : State, 2 ^ 61 ≤ s.len.toNat → ∃ s', exec .padlen s = .next s' ∧
    readStatus s' = 3 ∧ s'.phase = 0x0 ∧ s'.digestValid = false ∧
    s' = { s with status := s'.status, phase := s'.phase } ∧
    ∀ mem : Memory, exec .padlen { s with msg := mem } = .next { s' with msg := mem }

/-- The exception from the acceptance of START: only LEN, STATUS and PHASE have changed, and the same length given
again raises it again (R142, R143). -/
def Obligations.IllegalLengthEndsInErrorAndRepeats : Prop :=
  ∀ (s : State) (len : Length) (p q : Pins), s.Inv → s.status ≠ .busy → 2 ^ 61 ≤ len.toNat → p.rst = false →
    q.rst = false →
    runWith [startPins len, p] s =
      .next { s with len := len, status := .error, phase := 0x0, pins := p } ∧
    runWith [startPins len, p, startPins len, q] s =
      .next { s with len := len, status := .error, phase := 0x0, pins := q }

/-- R91: PADCALC in the document's bit terms. -/
def Obligations.PadcalcFollowsBitFormula : Prop :=
  (∀ t : BitVec 7, t.toNat ≤ 79 → decode (.u 0x2 t) = .ok .padcalc) ∧
  ∀ s : State, s.len.toNat < 2 ^ 61 → ∃ s', exec .padcalc s = .next s' ∧
    (8 * (s.len.toNat + 1) % 512 ≤ 448 →
      s'.plen.toNat = s.len.toNat + 1 + (448 - 8 * (s.len.toNat + 1) % 512) / 8 + 8) ∧
    (448 < 8 * (s.len.toNat + 1) % 512 →
      s'.plen.toNat = s.len.toNat + 1 + (512 - 8 * (s.len.toNat + 1) % 512 + 448) / 8 + 8) ∧
    s'.phase = 0x3 ∧ s' = { s with plen := s'.plen, phase := s'.phase }

/-- What PADCALC leaves in PLEN, in closed form, with NBLK, ZPAD and the bounds: the properties that R93 and R94 mark
as derived from R91. -/
def Obligations.PaddedLengthClosedForm : Prop :=
  ∀ s : State, s.len.toNat < 2 ^ 61 → ∃ s', exec .padcalc s = .next s' ∧
    s'.plen.toNat % 64 = 0 ∧ s'.nblk.toNat = s'.plen.toNat / 64 ∧
    s'.plen.toNat = 64 * ((s.len.toNat + 72) / 64) ∧
    (s.len.toNat % 64 ≤ 55 → s'.nblk.toNat = s.len.toNat / 64 + 1) ∧
    (56 ≤ s.len.toNat % 64 → s'.nblk.toNat = s.len.toNat / 64 + 2) ∧
    zpad s.len = s'.plen.toNat - s.len.toNat - 9 ∧
    64 ≤ s'.plen.toNat ∧ s'.plen.toNat ≤ 2 ^ 61 + 64 ∧ 1 ≤ s'.nblk.toNat ∧ s'.nblk.toNat ≤ 2 ^ 55 + 1 ∧
    s.len.toNat + 9 ≤ s'.plen.toNat ∧ s'.plen.toNat ≤ s.len.toNat + 72 ∧
    (∀ k : Nat, s.len.toNat + 9 ≤ 64 * k → s'.plen.toNat ≤ 64 * k)

/-- R92, R96: PM(j) of a state whose LEN, ML and PLEN are as the padder leaves them is byte j of `pad` of the message
that memory holds. -/
def Obligations.PadByteIsByteOfPaddedMessage : Prop :=
  ∀ (s : State) (j : Nat), s.len.toNat ≤ s.msgCap.toNat → s.ml.toNat = 8 * s.len.toNat →
    s.plen.toNat = 64 * ((s.len.toNat + 72) / 64) → j < s.plen.toNat →
    (pad (message s.msg s.len.toNat))[j]? = some (padByte s j)

/-- R96: the message can be recovered from its padded form. -/
def Obligations.PaddingIsInjective : Prop :=
  ∀ m m' : List Byte, m.length < 2 ^ 61 → m'.length < 2 ^ 61 → pad m = pad m' → m = m'

/-! ### The splitter -/

/-- SPLIT loads the 64 bytes of block N of the padded message (R100, by PM of R92). That it completes in EVERY state is
the model's choice: above MSG_CAP, where R51 lets a model refuse, the bytes are free (log 5), and where N >= NBLK breaks
R100's precondition it asks PM beyond PLEN (log 7, log 21). `draws` is the model's own counter (log 10). -/
def Obligations.SplitLoadsBlock : Prop :=
  (∀ t : BitVec 7, t.toNat ≤ 79 → decode (.u 0x4 t) = .ok .split) ∧
  ∀ s : State, ∃ s', exec .split s = .next s' ∧ s'.phase = 0x5 ∧
    s' = { s with blk := s'.blk, phase := s'.phase, draws := s'.draws } ∧
    (s.len.toNat + 9 ≤ s.plen.toNat → s.n.toNat < s.plen.toNat / 64 → ∀ (k : Nat) (hk : k < 64),
      (64 * s.n.toNat + k < s.len.toNat → 64 * s.n.toNat + k < s.msgCap.toNat →
        s'.blk[k] = Memory.read s.msg (64 * s.n.toNat + k)) ∧
      (64 * s.n.toNat + k = s.len.toNat → s'.blk[k] = 0x80) ∧
      (s.len.toNat < 64 * s.n.toNat + k → 64 * s.n.toNat + k + 8 < s.plen.toNat → s'.blk[k] = 0x00) ∧
      (s.plen.toNat ≤ 64 * s.n.toNat + k + 8 →
        s'.blk[k].toNat = s.ml.toNat / 256 ^ (7 - (64 * s.n.toNat + k + 8 - s.plen.toNat)) % 256))

/-- SPLIT depends on message memory only at the addresses of block N below LEN (R58, R97, R100) and below MSG_CAP:
memories that agree there give the same state. The bound by MSG_CAP is the model's choice: R51 leaves the value read
there unspecified, and the model's free byte owes nothing to memory (log 5). -/
def Obligations.SplitReadsOnlyItsBlock : Prop :=
  ∀ (s s' : State) (mem : Memory),
    (∀ addr, 64 * s.n.toNat ≤ addr → addr ≤ 64 * s.n.toNat + 63 → addr < s.len.toNat → addr < s.msgCap.toNat →
      Memory.read mem addr = Memory.read s.msg addr) →
    exec .split s = .next s' → exec .split { s with msg := mem } = .next { s' with msg := mem }

/-- R101: the blocks partition the padded message, in order, 64 bytes each. -/
def Obligations.BlocksPartitionPaddedMessage : Prop :=
  ∀ m : List Byte,
    (blocks m).flatten = pad m ∧ (∀ b ∈ blocks m, b.length = 64) ∧ 64 * (blocks m).length = (pad m).length ∧
    ∀ (n : Nat) (b : List Byte), (blocks m)[n]? = some b → ∀ k < 64, b[k]? = (pad m)[64 * n + k]?

/-! ### The expander -/

/-- R105: WLOAD takes word t from bytes 4t to 4t+3, big-endian, and touches no other word. -/
def Obligations.WloadExtractsWords : Prop :=
  (∀ t : BitVec 7, t.toNat ≤ 79 → decode (.u 0x5 t) = .ok .wload) ∧
  ∀ s : State, ∃ s', exec .wload s = .next s' ∧
    (∀ (i : Nat) (hi : i < 16), s'.w[i].toNat =
      s.blk[4 * i].toNat * 2 ^ 24 + s.blk[4 * i + 1].toNat * 2 ^ 16 + s.blk[4 * i + 2].toNat * 2 ^ 8 +
        s.blk[4 * i + 3].toNat) ∧
    (∀ (i : Nat) (hi : i < 80), 16 ≤ i → s'.w[i] = s.w[i]) ∧
    s'.phase = 0x6 ∧ s'.t = 16 ∧ s' = { s with w := s'.w, phase := s'.phase, t := s'.t }

/-- R106: WEXP writes W[t] alone: bit b is the exclusive or of bit b-1 (mod 32) of the four taps. -/
def Obligations.WexpExpandsOneWord : Prop :=
  ∀ (s : State) (t : BitVec 7) (hlo : 16 ≤ t.toNat) (hhi : t.toNat ≤ 79),
    decode (.u 0x6 t) = .ok (.wexp t) ∧
    ∃ s', exec (.wexp t) s = .next s' ∧
      (∀ b < 32, (s'.w[t.toNat]).getLsbD b =
        ((s.w[t.toNat - 3]).getLsbD ((b + 31) % 32) ^^ (s.w[t.toNat - 8]).getLsbD ((b + 31) % 32) ^^
          (s.w[t.toNat - 14]).getLsbD ((b + 31) % 32) ^^ (s.w[t.toNat - 16]).getLsbD ((b + 31) % 32))) ∧
      (∀ (i : Nat) (hi : i < 80), i ≠ t.toNat → s'.w[i] = s.w[i]) ∧
      (t.toNat = 79 → s'.phase = 0x7 ∧ s'.t = s.t) ∧
      (t.toNat < 79 → s'.phase = 0x6 ∧ s'.t.toNat = t.toNat + 1) ∧
      s' = { s with w := s'.w, phase := s'.phase, t := s'.t }

/-- R107: after WLOAD and the 64 WEXP the schedule is a function of the block alone. -/
def Obligations.ScheduleIsFunctionOfBlock : Prop :=
  ∀ (s : State) (ps : List Pins), s.status = .busy → s.phase = 0x5 → s.t.toNat ≤ 79 → noReset ps → ps.length = 65 →
    ∃ s', runWith ps s = .next s' ∧ s'.w.toList = schedule s.blk.toList ∧ s'.phase = 0x7 ∧
      s' = { s with w := s'.w, phase := s'.phase, t := s'.t, pins := s'.pins }

/-- In the last block the length field is W[14] and W[15], together ML: what R72 marks as derived. -/
def Obligations.LengthFieldIsLastTwoWords : Prop :=
  ∀ s : State, s.len.toNat + 9 ≤ s.plen.toNat → s.plen.toNat = 64 * (s.n.toNat + 1) →
    ∃ s1 s2, exec .split s = .next s1 ∧ exec .wload s1 = .next s2 ∧
      s2.w[14].toNat * 2 ^ 32 + s2.w[15].toNat = s.ml.toNat ∧
      ∀ m : Nat, (hm : m < 8) → s1.blk[56 + m].toNat = s.ml.toNat / 256 ^ (7 - m) % 256

/-! ### The round pipeline -/

/-- R110: HINIT loads IV and clears N, whatever H was. -/
def Obligations.HinitLoadsInitialState : Prop :=
  (∀ t : BitVec 7, t.toNat ≤ 79 → decode (.u 0x3 t) = .ok .hinit) ∧
  ∀ s : State, ∃ s', exec .hinit s = .next s' ∧
    s'.h[0] = 0x67452301 ∧ s'.h[1] = 0xEFCDAB89 ∧ s'.h[2] = 0x98BADCFE ∧ s'.h[3] = 0x10325476 ∧
    s'.h[4] = 0xC3D2E1F0 ∧ s'.n = 0 ∧ s'.phase = 0x4 ∧
    s' = { s with h := s'.h, n := s'.n, phase := s'.phase }

/-- R111: LDWV copies the hash state into A to E and starts the rounds at T = 0; H is not changed. -/
def Obligations.LdwvCopiesHashState : Prop :=
  (∀ t : BitVec 7, t.toNat ≤ 79 → decode (.u 0x7 t) = .ok .ldwv) ∧
  ∀ s : State, ∃ s', exec .ldwv s = .next s' ∧
    s'.a = s.h[0] ∧ s'.b = s.h[1] ∧ s'.c = s.h[2] ∧ s'.d = s.h[3] ∧ s'.e = s.h[4] ∧ s'.phase = 0x8 ∧ s'.t = 0 ∧
    s' = { s with a := s'.a, b := s'.b, c := s'.c, d := s'.d, e := s'.e, phase := s'.phase, t := s'.t }

/-- R112: RND0. Bit by bit f takes C where B has 1 and D where B has 0. -/
def Obligations.Rnd0UsesChoice : Prop :=
  ∀ (s : State) (t : BitVec 7) (ht : t.toNat ≤ 19), decode (.u 0x8 t) = .ok (.rnd0 t) ∧
    ∃ (s' : State) (f : Word), exec (.rnd0 t) s = .next s' ∧
      (∀ i < 32, f.getLsbD i = if s.b.getLsbD i then s.c.getLsbD i else s.d.getLsbD i) ∧
      s'.a.toNat =
        ((rotl32 s.a 5).toNat + f.toNat + s.e.toNat + 0x5A827999 + (s.w[t.toNat]).toNat) % 2 ^ 32 ∧
      s'.b = s.a ∧ s'.c = rotl32 s.b 30 ∧ s'.d = s.c ∧ s'.e = s.d ∧ s'.phase = 0x8 ∧ s'.t.toNat = t.toNat + 1 ∧
      s' = { s with a := s'.a, b := s'.b, c := s'.c, d := s'.d, e := s'.e, phase := s'.phase, t := s'.t }

/-- R113: RND1. Bit by bit f is 1 when an odd number of the three bits is 1. -/
def Obligations.Rnd1UsesParity : Prop :=
  ∀ (s : State) (t : BitVec 7) (hlo : 20 ≤ t.toNat) (hhi : t.toNat ≤ 39), decode (.u 0x8 t) = .ok (.rnd1 t) ∧
    ∃ (s' : State) (f : Word), exec (.rnd1 t) s = .next s' ∧
      (∀ i < 32, f.getLsbD i =
        decide (((s.b.getLsbD i).toNat + (s.c.getLsbD i).toNat + (s.d.getLsbD i).toNat) % 2 = 1)) ∧
      s'.a.toNat =
        ((rotl32 s.a 5).toNat + f.toNat + s.e.toNat + 0x6ED9EBA1 + (s.w[t.toNat]).toNat) % 2 ^ 32 ∧
      s'.b = s.a ∧ s'.c = rotl32 s.b 30 ∧ s'.d = s.c ∧ s'.e = s.d ∧ s'.phase = 0x8 ∧ s'.t.toNat = t.toNat + 1 ∧
      s' = { s with a := s'.a, b := s'.b, c := s'.c, d := s'.d, e := s'.e, phase := s'.phase, t := s'.t }

/-- R114: RND2. Bit by bit f is 1 when at least two of the three bits are 1. -/
def Obligations.Rnd2UsesMajority : Prop :=
  ∀ (s : State) (t : BitVec 7) (hlo : 40 ≤ t.toNat) (hhi : t.toNat ≤ 59), decode (.u 0x8 t) = .ok (.rnd2 t) ∧
    ∃ (s' : State) (f : Word), exec (.rnd2 t) s = .next s' ∧
      (∀ i < 32, f.getLsbD i =
        decide (2 ≤ (s.b.getLsbD i).toNat + (s.c.getLsbD i).toNat + (s.d.getLsbD i).toNat)) ∧
      s'.a.toNat =
        ((rotl32 s.a 5).toNat + f.toNat + s.e.toNat + 0x8F1BBCDC + (s.w[t.toNat]).toNat) % 2 ^ 32 ∧
      s'.b = s.a ∧ s'.c = rotl32 s.b 30 ∧ s'.d = s.c ∧ s'.e = s.d ∧ s'.phase = 0x8 ∧ s'.t.toNat = t.toNat + 1 ∧
      s' = { s with a := s'.a, b := s'.b, c := s'.c, d := s'.d, e := s'.e, phase := s'.phase, t := s'.t }

/-- R115: RND3. The function of RND1 with K[3]; T = 79 is the last round and leaves T at 79 (as it was). -/
def Obligations.Rnd3UsesParityAndEndsRounds : Prop :=
  ∀ (s : State) (t : BitVec 7) (hlo : 60 ≤ t.toNat) (hhi : t.toNat ≤ 79), decode (.u 0x8 t) = .ok (.rnd3 t) ∧
    ∃ (s' : State) (f : Word), exec (.rnd3 t) s = .next s' ∧
      (∀ i < 32, f.getLsbD i =
        decide (((s.b.getLsbD i).toNat + (s.c.getLsbD i).toNat + (s.d.getLsbD i).toNat) % 2 = 1)) ∧
      s'.a.toNat =
        ((rotl32 s.a 5).toNat + f.toNat + s.e.toNat + 0xCA62C1D6 + (s.w[t.toNat]).toNat) % 2 ^ 32 ∧
      s'.b = s.a ∧ s'.c = rotl32 s.b 30 ∧ s'.d = s.c ∧ s'.e = s.d ∧
      (t.toNat = 79 → s'.phase = 0x9 ∧ s'.t = s.t) ∧
      (t.toNat < 79 → s'.phase = 0x8 ∧ s'.t.toNat = t.toNat + 1) ∧
      s' = { s with a := s'.a, b := s'.b, c := s'.c, d := s'.d, e := s'.e, phase := s'.phase, t := s'.t }

/-- R117: HUPD adds each working variable into its hash register, modulo 2^32, the carry discarded. -/
def Obligations.HupdAddsWorkingVariables : Prop :=
  (∀ t : BitVec 7, t.toNat ≤ 79 → decode (.u 0x9 t) = .ok .hupd) ∧
  ∀ s : State, ∃ s', exec .hupd s = .next s' ∧
    s'.h[0].toNat = (s.h[0].toNat + s.a.toNat) % 2 ^ 32 ∧ s'.h[1].toNat = (s.h[1].toNat + s.b.toNat) % 2 ^ 32 ∧
    s'.h[2].toNat = (s.h[2].toNat + s.c.toNat) % 2 ^ 32 ∧ s'.h[3].toNat = (s.h[3].toNat + s.d.toNat) % 2 ^ 32 ∧
    s'.h[4].toNat = (s.h[4].toNat + s.e.toNat) % 2 ^ 32 ∧ s'.phase = 0xA ∧
    s' = { s with h := s'.h, phase := s'.phase }

/-- R119: the 147 operations of one block make H = compress of the block and the old H, and leave everything else of
the run alone. -/
def Obligations.BlockOperationsCompress : Prop :=
  ∀ (s : State) (ps : List Pins), s.status = .busy → s.phase = 0x5 → s.t.toNat ≤ 79 → noReset ps →
    ps.length = 147 →
    ∃ s', runWith ps s = .next s' ∧ s'.h = compress s.h s.blk.toList ∧ s'.phase = 0xA ∧
      s' = { s with h := s'.h, a := s'.a, b := s'.b, c := s'.c, d := s'.d, e := s'.e, w := s'.w, phase := s'.phase,
                    t := s'.t, pins := s'.pins }

/-! ### NEXT, SER and the output views -/

/-- R131: NEXT goes back to SPLIT with N + 1 while N + 1 < NBLK = PLEN / 64, else on to SER. -/
def Obligations.NextStepsBlockOrLeaves : Prop :=
  (∀ t : BitVec 7, t.toNat ≤ 79 → decode (.u 0xA t) = .ok .next) ∧
  ∀ s : State, ∃ s', exec .next s = .next s' ∧ s' = { s with n := s'.n, phase := s'.phase } ∧
    (s.n.toNat + 1 < s.plen.toNat / 64 → s'.n.toNat = s.n.toNat + 1 ∧ s'.phase = 0x4) ∧
    (s.plen.toNat / 64 ≤ s.n.toNat + 1 → s'.n = s.n ∧ s'.phase = 0xB)

/-- R120: SER writes the twenty bytes of H, big-endian, and STATUS = DONE in the same operation. -/
def Obligations.SerWritesDigestAndEndsRun : Prop :=
  (∀ t : BitVec 7, t.toNat ≤ 79 → decode (.u 0xB t) = .ok .ser) ∧
  ∀ s : State, ∃ s', exec .ser s = .next s' ∧
    (∀ (i m : Nat) (hi : i < 5) (hm : m < 4),
      s'.digest[4 * i + m].toNat = s.h[i].toNat / 256 ^ (3 - m) % 256) ∧
    s'.status = .done ∧ s'.phase = 0x0 ∧ s' = { s with digest := s'.digest, status := s'.status, phase := s'.phase }

/-- Reading the digest's bytes with be32 gives back the hash state: R121, which the spec marks as derived from R120 and
R15. -/
def Obligations.SerializerInvertsWordExtraction : Prop :=
  ∀ (s : State), ∃ s', exec .ser s = .next s' ∧ ∀ (i : Nat) (hi : i < 5),
    be32 s'.digest[4 * i] s'.digest[4 * i + 1] s'.digest[4 * i + 2] s'.digest[4 * i + 3] = s.h[i]

/-- When STATUS = DONE every read of DIGEST gives the register, however often the host reads, and reading changes
nothing (R33, R128, R162). Of other reads nothing is said: they are free (log 8). With RST raised and no step since,
that it still reads so is the model's choice (log 22). -/
def Obligations.DigestReadableWhenDone : Prop :=
  ∀ (s : State) (read : Nat), s.status = .done →
    readDigest read s = s.digest ∧ readHex read s = hexView s.digest ∧ hostMove .readPorts s = .next s

/-- HEX is two lowercase hexadecimal characters a byte; every character is one of [0-9a-f] (R122). That the high nibble
comes first R122 marks as derived, the ASCII codes as general knowledge (log 20). -/
def Obligations.HexViewIsLowercaseHex : Prop :=
  (∀ (d : Vector Byte 20) (m : Nat) (hm : m < 20),
    (hexView d)[2 * m].toNat = (if d[m].toNat / 16 < 10 then 0x30 + d[m].toNat / 16 else 0x61 + (d[m].toNat / 16 - 10)) ∧
    (hexView d)[2 * m + 1].toNat =
      (if d[m].toNat % 16 < 10 then 0x30 + d[m].toNat % 16 else 0x61 + (d[m].toNat % 16 - 10))) ∧
  (∀ (d : Vector Byte 20) (i : Nat) (hi : i < 40),
    (0x30 ≤ (hexView d)[i].toNat ∧ (hexView d)[i].toNat ≤ 0x39) ∨
    (0x61 ≤ (hexView d)[i].toNat ∧ (hexView d)[i].toNat ≤ 0x66)) ∧
  (∀ d d' : Vector Byte 20, hexView d = hexView d' → d = d')

/-! ### The host and message memory -/

/-- While BUSY the host has no move that writes the message (R137, R160; that the model refuses it is log 14);
otherwise a byte it writes lands at its address and nowhere else. -/
def Obligations.HostWritesOnlyWhileNotBusy : Prop :=
  ∀ (s : State) (addr : BitVec 61) (v : Byte), Memory.wf s.msg →
    (s.status = .busy → hostMove (.writeMessage addr v) s = .refused .messageFrozen) ∧
    (s.status ≠ .busy → addr.toNat < s.msgCap.toNat → ∃ s', hostMove (.writeMessage addr v) s = .next s' ∧
      (∀ other, Memory.read s'.msg other = if other = addr.toNat then v else Memory.read s.msg other) ∧
      s' = { s with msg := s'.msg })

/-- No step writes message memory (R52), and none moves the input pins (log 3) or the platform's MSG_CAP (log 4). -/
def Obligations.StepLeavesMessageMemory : Prop :=
  ∀ s s' : State, step s = .next s' → s'.msg = s.msg ∧ s'.pins = s.pins ∧ s'.msgCap = s.msgCap

/-- Two canonical memories that read alike everywhere are the same data: a property of the model's form of memory
(log 6). -/
def Obligations.CanonicalMemoryIsDeterminedByReads : Prop :=
  ∀ m m' : Memory, Memory.wf m → Memory.wf m' → (∀ addr, Memory.read m addr = Memory.read m' addr) → m = m'

/-! ### The whole machine -/

/-- The table of spec/10_state.md section 1: which instructions write which register. -/
def Obligations.RegistersHaveTheirWriters : Prop :=
  ∀ (i : Instr) (s s' : State), exec i s = .next s' →
    (s'.h ≠ s.h → i = .hinit ∨ i = .hupd) ∧
    ((s'.a ≠ s.a ∨ s'.b ≠ s.b ∨ s'.c ≠ s.c ∨ s'.d ≠ s.d ∨ s'.e ≠ s.e) →
      i = .ldwv ∨ ∃ t, i = .rnd0 t ∨ i = .rnd1 t ∨ i = .rnd2 t ∨ i = .rnd3 t) ∧
    (s'.w ≠ s.w → i = .wload ∨ ∃ t, i = .wexp t) ∧
    (s'.blk ≠ s.blk → i = .split) ∧ (s'.digest ≠ s.digest → i = .ser) ∧ (s'.len ≠ s.len → i = .start) ∧
    (s'.ml ≠ s.ml → i = .padlen) ∧ (s'.plen ≠ s.plen → i = .padcalc) ∧ (s'.n ≠ s.n → i = .hinit ∨ i = .next) ∧
    (s'.t ≠ s.t → i = .wload ∨ i = .ldwv ∨
      ∃ t, i = .wexp t ∨ i = .rnd0 t ∨ i = .rnd1 t ∨ i = .rnd2 t ∨ i = .rnd3 t) ∧
    (s'.status ≠ s.status → i = .start ∨ i = .padlen ∨ i = .ser)

/-- R130: the transition table of the sequencer, complete. -/
def Obligations.TransitionTableIsFollowed : Prop :=
  ∀ s s' : State, s.Inv → step s = .next s' →
    (s.pins.rst = true → s'.phase = 0x0 ∧ s'.status = .idle) ∧
    (s.pins.rst = false →
      (s.phase = 0x0 → s.pins.start = true → s'.phase = 0x1 ∧ s'.status = .busy) ∧
      (s.phase = 0x0 → s.pins.start = false → s' = s) ∧
      (s.phase = 0x1 → s.len.toNat < 2 ^ 61 → s'.phase = 0x2) ∧
      (s.phase = 0x1 → 2 ^ 61 ≤ s.len.toNat → s'.phase = 0x0 ∧ s'.status = .error) ∧
      (s.phase = 0x2 → s'.phase = 0x3) ∧
      (s.phase = 0x3 → s'.phase = 0x4 ∧ s'.n = 0) ∧
      (s.phase = 0x4 → s'.phase = 0x5) ∧
      (s.phase = 0x5 → s'.phase = 0x6 ∧ s'.t = 16) ∧
      (s.phase = 0x6 → s.t.toNat < 79 → s'.phase = 0x6 ∧ s'.t.toNat = s.t.toNat + 1) ∧
      (s.phase = 0x6 → s.t.toNat = 79 → s'.phase = 0x7) ∧
      (s.phase = 0x7 → s'.phase = 0x8 ∧ s'.t = 0) ∧
      (s.phase = 0x8 → s.t.toNat < 79 → s'.phase = 0x8 ∧ s'.t.toNat = s.t.toNat + 1) ∧
      (s.phase = 0x8 → s.t.toNat = 79 → s'.phase = 0x9) ∧
      (s.phase = 0x9 → s'.phase = 0xA) ∧
      (s.phase = 0xA → s.n.toNat + 1 < s.nblk.toNat → s'.phase = 0x4 ∧ s'.n.toNat = s.n.toNat + 1) ∧
      (s.phase = 0xA → s.n.toNat + 1 = s.nblk.toNat → s'.phase = 0xB) ∧
      (s.phase = 0xB → s'.phase = 0x0 ∧ s'.status = .done))

/-- The invariant holds right after reset, whose unspecified registers hold the model's zeros (log 1). -/
def Obligations.ResetSatisfiesInvariant : Prop := State.reset.Inv

/-- The invariants of the position, which R133 marks as derived, hold after every step of a state that has them. -/
def Obligations.StepKeepsInvariant : Prop := ∀ s s' : State, s.Inv → step s = .next s' → s'.Inv

/-- Whatever the host does between two steps keeps the invariant. -/
def Obligations.HostMovesKeepInvariant : Prop :=
  ∀ (m : HostMove) (s s' : State), s.Inv → hostMove m s = .next s' → s'.Inv

/-- R141, R167: from a state of the invariant a step always answers a next state: nothing faults, nothing is refused,
nothing waits. -/
def Obligations.MachineNeverStops : Prop := ∀ s : State, s.Inv → ∃ s', step s = .next s'

/-- R132, whose counts the spec marks as derived from R130: a run of a legal length ends in DONE after START and exactly 4 + 149 NBLK micro-operations and is BUSY
before; an illegal length ends in ERROR after one. The host may drive START and MSG_LEN as it likes meanwhile. -/
def Obligations.RunEndsAfterExactCount : Prop :=
  ∀ (s : State) (len : Length), s.Inv → s.status ≠ .busy →
    (∀ ps : List Pins, len.toNat < 2 ^ 61 → noReset ps → ps.length = 4 + 149 * ((len.toNat + 72) / 64) →
      (∃ s', runWith (startPins len :: ps) s = .next s' ∧ s'.status = .done ∧ s'.phase = 0x0) ∧
      ∀ k < ps.length, ∃ s', runWith (startPins len :: ps.take k) s = .next s' ∧ s'.status = .busy) ∧
    (∀ p : Pins, 2 ^ 61 ≤ len.toNat → p.rst = false →
      (∃ s', runWith [startPins len] s = .next s' ∧ s'.status = .busy) ∧
      ∃ s', runWith [startPins len, p] s = .next s' ∧ s'.status = .error ∧ s'.phase = 0x0)

/-- R134, which the spec marks as derived from R130: a run computes the digest of the message. For every message length the platform holds, from any state of the
invariant that is not BUSY, whatever its registers hold, DIGEST ends as `hashMessage` of the bytes in message memory; an
illegal length ends in ERROR with no digest. -/
def Obligations.RunComputesDigest : Prop :=
  ∀ (s : State) (len : Length), s.Inv → s.status ≠ .busy →
    (∀ ps : List Pins, len.toNat ≤ s.msgCap.toNat → noReset ps →
      ps.length = 4 + 149 * (paddedLength len.toNat / 64) →
      ∃ s', runWith (startPins len :: ps) s = .next s' ∧ s'.status = .done ∧
        (∀ read, readDigest read s' = hashMessage (message s.msg len.toNat)) ∧ s'.msg = s.msg) ∧
    (∀ p : Pins, 2 ^ 61 ≤ len.toNat → p.rst = false →
      ∃ s', runWith [startPins len, p] s = .next s' ∧ s'.status = .error ∧ s'.digestValid = false)

/-- R127 and R123 (marked as derived from R163): two runs with equal length and equal message bytes end alike, whatever happened before either and
whatever the host drives on START and MSG_LEN during either. -/
def Obligations.RunsAreIndependentOfHistory : Prop :=
  ∀ (s r : State) (len : Length) (ps qs : List Pins), s.Inv → r.Inv → s.status ≠ .busy → r.status ≠ .busy →
    (∀ addr < len.toNat, Memory.read s.msg addr = Memory.read r.msg addr) →
    noReset ps → noReset qs →
    (len.toNat ≤ s.msgCap.toNat → len.toNat ≤ r.msgCap.toNat → ps.length = qs.length →
      ps.length = 4 + 149 * (paddedLength len.toNat / 64) →
      ∃ s' r', runWith (startPins len :: ps) s = .next s' ∧ runWith (startPins len :: qs) r = .next r' ∧
        s'.status = r'.status ∧ s'.digest = r'.digest) ∧
    (2 ^ 61 ≤ len.toNat → ps.length = 1 → qs.length = 1 →
      ∃ s' r', runWith (startPins len :: ps) s = .next s' ∧ runWith (startPins len :: qs) r = .next r' ∧
        s'.status = .error ∧ r'.status = .error)

/-- R135: the document's three known answers hold for the function a run computes (`RunComputesDigest`). -/
def Obligations.KnownAnswersHold : Prop :=
  (hashMessage []).toList =
    [0xDA, 0x39, 0xA3, 0xEE, 0x5E, 0x6B, 0x4B, 0x0D, 0x32, 0x55, 0xBF, 0xEF, 0x95, 0x60, 0x18, 0x90, 0xAF, 0xD8,
     0x07, 0x09] ∧
  (hashMessage [0x61, 0x62, 0x63]).toList =
    [0xA9, 0x99, 0x3E, 0x36, 0x47, 0x06, 0x81, 0x6A, 0xBA, 0x3E, 0x25, 0x71, 0x78, 0x50, 0xC2, 0x6C, 0x9C, 0xD0,
     0xD8, 0x9D] ∧
  (hashMessage
    [0x54, 0x68, 0x65, 0x20, 0x71, 0x75, 0x69, 0x63, 0x6b, 0x20, 0x62, 0x72, 0x6f, 0x77, 0x6e, 0x20, 0x66, 0x6f, 0x78,
     0x20, 0x6a, 0x75, 0x6d, 0x70, 0x73, 0x20, 0x6f, 0x76, 0x65, 0x72, 0x20, 0x74, 0x68, 0x65, 0x20, 0x6c, 0x61, 0x7a,
     0x79, 0x20, 0x64, 0x6f, 0x67]).toList =
    [0x2F, 0xD4, 0xE1, 0xC6, 0x7A, 0x2D, 0x28, 0xFC, 0xED, 0x84, 0x9E, 0xE1, 0xBB, 0x76, 0xE7, 0x39, 0x1B, 0x93,
     0xEB, 0x12]
end

