-- ==== Sys2Proof/Laws/Memory.lean ====
section
/-! SUPPORT. Message memory: a read after a write, the rest of memory left alone, the canonical form kept. -/

namespace Sys2Proof.Machine

/-- Every address listed lies above `addr`. -/
theorem Memory.read_of_all_above (m : Memory) (addr : Nat) (hm : ∀ c ∈ m, addr < c.1) :
    Memory.read m addr = Memory.unlisted := by
  induction m with
  | nil => rfl
  | cons c rest ih =>
    obtain ⟨k, x⟩ := c
    have hk : addr < k := hm (k, x) List.mem_cons_self
    have hne : ¬ k = addr := by omega
    simp only [Memory.read, if_neg hne]
    exact ih fun c hc => hm c (List.mem_cons_of_mem _ hc)

/-- What a write of one byte does to every read, on a memory whose addresses rise. -/
theorem Memory.read_write (m : Memory) (addr other : Nat) (v : Byte)
    (hm : List.Pairwise (fun c d => c.1 < d.1) m) :
    Memory.read (Memory.write m addr v) other = if other = addr then v else Memory.read m other := by
  induction m with
  | nil => by_cases hv : v = Memory.unlisted <;> by_cases ho : other = addr <;>
      simp_all [Memory.write, Memory.read, eq_comm]
  | cons c rest ih =>
    obtain ⟨k, x⟩ := c
    have hrest := List.pairwise_cons.mp hm
    have ih' := ih hrest.2
    by_cases hlt : k < addr
    · have hne : ¬ k = addr := by omega
      simp only [Memory.write, if_pos hlt, Memory.read]
      by_cases hko : k = other
      · have : ¬ other = addr := by omega
        simp [hko, this]
      · simp [hko, ih']
    · by_cases heq : k = addr
      · subst heq
        have above : Memory.read rest k = Memory.unlisted :=
          Memory.read_of_all_above rest k fun c hc => hrest.1 c hc
        have hko (ho : ¬ other = k) : ¬ k = other := fun h => ho h.symm
        by_cases hv : v = Memory.unlisted <;> by_cases ho : other = k
        · simp [Memory.write, hv, ho, above]
        · simp [Memory.write, Memory.read, hv, ho, hko ho]
        · simp [Memory.write, Memory.read, hv, ho]
        · simp [Memory.write, Memory.read, hv, ho, hko ho]
      · have above : Memory.read ((k, x) :: rest) addr = Memory.unlisted := by
          apply Memory.read_of_all_above
          intro c hc
          rcases List.mem_cons.mp hc with rfl | hc
          · show addr < k; omega
          · have := hrest.1 c hc
            show addr < c.1
            have h2 : k < c.1 := this
            omega
        by_cases hv : v = Memory.unlisted
        · simp only [Memory.write, if_neg hlt, if_neg heq, if_pos hv]
          by_cases ho : other = addr
          · rw [ho, above, if_pos rfl, hv]
          · rw [if_neg ho]
        · simp only [Memory.write, if_neg hlt, if_neg heq, if_neg hv]
          by_cases ho : other = addr
          · subst ho; simp [Memory.read]
          · have : ¬ addr = other := fun h => ho h.symm
            simp [Memory.read, ho, this]

/-- A write adds no address but its own. -/
theorem Memory.mem_write (m : Memory) (addr : Nat) (v : Byte) (c : Host.Cell)
    (hc : c ∈ Memory.write m addr v) : c ∈ m ∨ (c = (addr, v) ∧ v ≠ Memory.unlisted) := by
  induction m with
  | nil => by_cases hv : v = Memory.unlisted <;> simp_all [Memory.write]
  | cons d rest ih =>
    obtain ⟨k, x⟩ := d
    by_cases hlt : k < addr
    · simp only [Memory.write, if_pos hlt, List.mem_cons] at hc ⊢
      rcases hc with hc | hc
      · exact .inl (.inl hc)
      · rcases ih hc with h | h
        · exact .inl (.inr h)
        · exact .inr h
    · by_cases heq : k = addr <;> by_cases hv : v = Memory.unlisted <;>
        simp [Memory.write, hlt, heq, hv] at hc ⊢ <;> tauto

/-- A write of a byte at a 61-bit address keeps the canonical form. -/
theorem Memory.write_wf (m : Memory) (addr : Nat) (v : Byte) (hm : Memory.wf m) (ha : addr < 2 ^ 61) :
    Memory.wf (Memory.write m addr v) := by
  refine ⟨?_, fun c hc => ?_⟩
  · induction m with
    | nil => by_cases hv : v = Memory.unlisted <;> simp [Memory.write, hv]
    | cons d rest ih =>
      obtain ⟨k, x⟩ := d
      have hp := List.pairwise_cons.mp hm.1
      have hrest : Memory.wf rest := ⟨hp.2, fun c hc => hm.2 c (List.mem_cons_of_mem _ hc)⟩
      by_cases hlt : k < addr
      · simp only [Memory.write, if_pos hlt]
        refine List.pairwise_cons.mpr ⟨fun c hc => ?_, ih hrest⟩
        rcases Memory.mem_write rest addr v c hc with h | ⟨rfl, _⟩
        · exact hp.1 c h
        · exact hlt
      · by_cases heq : k = addr
        · subst heq
          by_cases hv : v = Memory.unlisted
          · simpa [Memory.write, hv] using hp.2
          · simp only [Memory.write, if_neg hlt, if_true, if_neg hv]
            exact List.pairwise_cons.mpr ⟨hp.1, hp.2⟩
        · by_cases hv : v = Memory.unlisted
          · simpa [Memory.write, hlt, heq, hv] using hm.1
          · simp only [Memory.write, if_neg hlt, if_neg heq, if_neg hv]
            refine List.pairwise_cons.mpr ⟨fun c hc => ?_, hm.1⟩
            rcases List.mem_cons.mp hc with rfl | hc
            · show addr < k; omega
            · have h2 : k < c.1 := hp.1 c hc
              show addr < c.1
              omega
  · rcases Memory.mem_write m addr v c hc with h | ⟨rfl, hv⟩
    · exact hm.2 c h
    · exact ⟨ha, hv⟩

/-- Memory after reset is in canonical form. -/
theorem State.reset_memory_wf : Memory.wf State.reset.msg := by
  exact ⟨List.Pairwise.nil, fun c hc => absurd hc List.not_mem_nil⟩

end Sys2Proof.Machine
end

