-- ==== Sys2Proof/Laws/Operands.lean ====
section
/-! SUPPORT. One lemma for each shared operand operation: what each element of its answer is. -/

namespace Sys2Proof.Machine

/-- Byte `k` of the block SPLIT loads is PM(64 N + k) (R100). -/
@[simp] theorem nextBlock_getElem (s : State) (k : Nat) (hk : k < 64) :
    (nextBlock s)[k] = padByte s (64 * s.n.toNat + k) := by
  simp [nextBlock]

/-- A word WLOAD writes (R105). -/
theorem loadWords_low (blk : Vector Byte 64) (w : Vector Word 80) (i : Nat) (hi : i < 16) :
    (loadWords blk w)[i] = be32 blk[4 * i] blk[4 * i + 1] blk[4 * i + 2] blk[4 * i + 3] := by
  simp [loadWords, blockWord, hi]

/-- A word WLOAD leaves alone (R105). -/
theorem loadWords_high (blk : Vector Byte 64) (w : Vector Word 80) (i : Nat) (hi : 16 ≤ i) (h : i < 80) :
    (loadWords blk w)[i] = w[i] := by
  have : ¬ i < 16 := by omega
  simp [loadWords, this]

/-- A byte of the digest (R120). -/
@[simp] theorem serialize_getElem (h : Vector Word 5) (j : Nat) (hj : j < 20) :
    (serialize h)[j] = byteBe h[j / 4] 4 (j % 4) := by
  simp [serialize]

/-- PM(j) inside the message (R92). -/
theorem padByte_message (s : State) (j : Nat) (hp : j < s.plen.toNat) (hj : j < s.len.toNat) :
    padByte s j = memRead s j := by
  simp [padByte, Nat.not_le.mpr hp, hj]

/-- PM(LEN), the marker (R92). -/
theorem padByte_marker (s : State) (hp : s.len.toNat < s.plen.toNat) : padByte s s.len.toNat = 0x80 := by
  simp [padByte, Nat.not_le.mpr hp]

/-- PM(j) in the zero fill (R92). -/
theorem padByte_fill (s : State) (j : Nat) (hj : s.len.toNat < j) (hp : j + 8 < s.plen.toNat) :
    padByte s j = 0x00 := by
  have h1 : ¬ s.plen.toNat ≤ j := by omega
  have h2 : ¬ j < s.len.toNat := by omega
  have h3 : ¬ j = s.len.toNat := by omega
  simp [padByte, h1, h2, h3, hp]

/-- PM(j) in the length field (R92). -/
theorem padByte_length (s : State) (j : Nat) (hj : s.len.toNat < j) (hp : j < s.plen.toNat)
    (hf : s.plen.toNat ≤ j + 8) : padByte s j = byteBe s.ml 8 (j + 8 - s.plen.toNat) := by
  have h1 : ¬ s.plen.toNat ≤ j := by omega
  have h2 : ¬ j < s.len.toNat := by omega
  have h3 : ¬ j = s.len.toNat := by omega
  have h4 : ¬ j + 8 < s.plen.toNat := by omega
  simp [padByte, h1, h2, h3, h4]

/-- A memory read the platform provides (R51). -/
theorem memRead_provided (s : State) (addr : Nat) (h : addr < s.msgCap.toNat) :
    memRead s addr = Memory.read s.msg addr := by
  simp [memRead, h]

end Sys2Proof.Machine
end

