-- ==== Sys2Proof/Laws/PerInstr.lean ====
section
/-! SUPPORT. The family TableRow: the encoding of a well-formed instruction lies in its row of
spec/opcode_table.json, that is its word agrees with the row's `match` under the row's `mask`, in the row's format. -/

namespace Sys2Proof.Laws.TableRow

/-- (bits of the format in whole bytes, mask, match) of each instruction's row. -/
def row : Instr → Nat × Nat × Nat
  | .start => (8, 0x1, 0x1)
  | .padlen => (16, 0x780, 0x080)
  | .padcalc => (16, 0x780, 0x100)
  | .hinit => (16, 0x780, 0x180)
  | .split => (16, 0x780, 0x200)
  | .wload => (16, 0x780, 0x280)
  | .wexp _ => (16, 0x780, 0x300)
  | .ldwv => (16, 0x780, 0x380)
  | .rnd0 _ => (16, 0x780, 0x400)
  | .rnd1 _ => (16, 0x780, 0x400)
  | .rnd2 _ => (16, 0x780, 0x400)
  | .rnd3 _ => (16, 0x780, 0x400)
  | .hupd => (16, 0x780, 0x480)
  | .next => (16, 0x780, 0x500)
  | .ser => (16, 0x780, 0x580)

/-- The encoder's word, of the row's format, agrees with the row. -/
def Statement (i : Instr) : Prop :=
  (encode i).nbits = (row i).1 ∧ (encode i).word &&& (row i).2.1 = (row i).2.2

theorem start : Statement .start := ⟨rfl, rfl⟩
theorem padlen : Statement .padlen := ⟨rfl, rfl⟩
theorem padcalc : Statement .padcalc := ⟨rfl, rfl⟩
theorem hinit : Statement .hinit := ⟨rfl, rfl⟩
theorem split : Statement .split := ⟨rfl, rfl⟩
theorem wload : Statement .wload := ⟨rfl, rfl⟩
theorem ldwv : Statement .ldwv := ⟨rfl, rfl⟩
theorem hupd : Statement .hupd := ⟨rfl, rfl⟩
theorem next : Statement .next := ⟨rfl, rfl⟩
theorem ser : Statement .ser := ⟨rfl, rfl⟩

/-- The T field lies outside the mask. -/
theorem masked (p : BitVec 4) : ∀ t : BitVec 7, (Encoded.word (.u p t)) &&& 0x780 = p.toNat * 128 := by
  revert p; decide

theorem wexp (t : BitVec 7) : Statement (.wexp t) := ⟨rfl, masked 0x6 t⟩
theorem rnd0 (t : BitVec 7) : Statement (.rnd0 t) := ⟨rfl, masked 0x8 t⟩
theorem rnd1 (t : BitVec 7) : Statement (.rnd1 t) := ⟨rfl, masked 0x8 t⟩
theorem rnd2 (t : BitVec 7) : Statement (.rnd2 t) := ⟨rfl, masked 0x8 t⟩
theorem rnd3 (t : BitVec 7) : Statement (.rnd3 t) := ⟨rfl, masked 0x8 t⟩

end Sys2Proof.Laws.TableRow
end

