-- ==== Sys2Proof/Laws/State.lean ====
section
/-! SUPPORT. One lemma per field for each update of the state that Machine/Ops.lean, Flags.lean and Operands.lean
name, so that no proof unfolds a record update. The names say update and field. -/

namespace Sys2Proof.Machine

variable (s : State)

/-! ### `pc <- (PH_x)` -/

@[simp] theorem State.goto_h (ph : Phase) : (s.goto ph).h = s.h := rfl
@[simp] theorem State.goto_a (ph : Phase) : (s.goto ph).a = s.a := rfl
@[simp] theorem State.goto_b (ph : Phase) : (s.goto ph).b = s.b := rfl
@[simp] theorem State.goto_c (ph : Phase) : (s.goto ph).c = s.c := rfl
@[simp] theorem State.goto_d (ph : Phase) : (s.goto ph).d = s.d := rfl
@[simp] theorem State.goto_e (ph : Phase) : (s.goto ph).e = s.e := rfl
@[simp] theorem State.goto_w (ph : Phase) : (s.goto ph).w = s.w := rfl
@[simp] theorem State.goto_blk (ph : Phase) : (s.goto ph).blk = s.blk := rfl
@[simp] theorem State.goto_digest (ph : Phase) : (s.goto ph).digest = s.digest := rfl
@[simp] theorem State.goto_len (ph : Phase) : (s.goto ph).len = s.len := rfl
@[simp] theorem State.goto_ml (ph : Phase) : (s.goto ph).ml = s.ml := rfl
@[simp] theorem State.goto_plen (ph : Phase) : (s.goto ph).plen = s.plen := rfl
@[simp] theorem State.goto_n (ph : Phase) : (s.goto ph).n = s.n := rfl
@[simp] theorem State.goto_phase (ph : Phase) : (s.goto ph).phase = ph.code := rfl
@[simp] theorem State.goto_t (ph : Phase) : (s.goto ph).t = s.t := rfl
@[simp] theorem State.goto_status (ph : Phase) : (s.goto ph).status = s.status := rfl
@[simp] theorem State.goto_pins (ph : Phase) : (s.goto ph).pins = s.pins := rfl
@[simp] theorem State.goto_msg (ph : Phase) : (s.goto ph).msg = s.msg := rfl
@[simp] theorem State.goto_msgCap (ph : Phase) : (s.goto ph).msgCap = s.msgCap := rfl
@[simp] theorem State.goto_draws (ph : Phase) : (s.goto ph).draws = s.draws := rfl

/-! ### `pc <- (PH_x, T = v)` -/

@[simp] theorem State.gotoAt_h (ph : Phase) (v : BitVec 7) : (s.gotoAt ph v).h = s.h := rfl
@[simp] theorem State.gotoAt_a (ph : Phase) (v : BitVec 7) : (s.gotoAt ph v).a = s.a := rfl
@[simp] theorem State.gotoAt_b (ph : Phase) (v : BitVec 7) : (s.gotoAt ph v).b = s.b := rfl
@[simp] theorem State.gotoAt_c (ph : Phase) (v : BitVec 7) : (s.gotoAt ph v).c = s.c := rfl
@[simp] theorem State.gotoAt_d (ph : Phase) (v : BitVec 7) : (s.gotoAt ph v).d = s.d := rfl
@[simp] theorem State.gotoAt_e (ph : Phase) (v : BitVec 7) : (s.gotoAt ph v).e = s.e := rfl
@[simp] theorem State.gotoAt_w (ph : Phase) (v : BitVec 7) : (s.gotoAt ph v).w = s.w := rfl
@[simp] theorem State.gotoAt_blk (ph : Phase) (v : BitVec 7) : (s.gotoAt ph v).blk = s.blk := rfl
@[simp] theorem State.gotoAt_digest (ph : Phase) (v : BitVec 7) : (s.gotoAt ph v).digest = s.digest := rfl
@[simp] theorem State.gotoAt_len (ph : Phase) (v : BitVec 7) : (s.gotoAt ph v).len = s.len := rfl
@[simp] theorem State.gotoAt_ml (ph : Phase) (v : BitVec 7) : (s.gotoAt ph v).ml = s.ml := rfl
@[simp] theorem State.gotoAt_plen (ph : Phase) (v : BitVec 7) : (s.gotoAt ph v).plen = s.plen := rfl
@[simp] theorem State.gotoAt_n (ph : Phase) (v : BitVec 7) : (s.gotoAt ph v).n = s.n := rfl
@[simp] theorem State.gotoAt_phase (ph : Phase) (v : BitVec 7) : (s.gotoAt ph v).phase = ph.code := rfl
@[simp] theorem State.gotoAt_t (ph : Phase) (v : BitVec 7) : (s.gotoAt ph v).t = v := rfl
@[simp] theorem State.gotoAt_status (ph : Phase) (v : BitVec 7) : (s.gotoAt ph v).status = s.status := rfl
@[simp] theorem State.gotoAt_pins (ph : Phase) (v : BitVec 7) : (s.gotoAt ph v).pins = s.pins := rfl
@[simp] theorem State.gotoAt_msg (ph : Phase) (v : BitVec 7) : (s.gotoAt ph v).msg = s.msg := rfl
@[simp] theorem State.gotoAt_msgCap (ph : Phase) (v : BitVec 7) : (s.gotoAt ph v).msgCap = s.msgCap := rfl
@[simp] theorem State.gotoAt_draws (ph : Phase) (v : BitVec 7) : (s.gotoAt ph v).draws = s.draws := rfl

/-! ### Acceptance of START (R125) -/

@[simp] theorem beginRun_h : (beginRun s).h = s.h := rfl
@[simp] theorem beginRun_a : (beginRun s).a = s.a := rfl
@[simp] theorem beginRun_b : (beginRun s).b = s.b := rfl
@[simp] theorem beginRun_c : (beginRun s).c = s.c := rfl
@[simp] theorem beginRun_d : (beginRun s).d = s.d := rfl
@[simp] theorem beginRun_e : (beginRun s).e = s.e := rfl
@[simp] theorem beginRun_w : (beginRun s).w = s.w := rfl
@[simp] theorem beginRun_blk : (beginRun s).blk = s.blk := rfl
@[simp] theorem beginRun_digest : (beginRun s).digest = s.digest := rfl
@[simp] theorem beginRun_len : (beginRun s).len = s.pins.msgLen := rfl
@[simp] theorem beginRun_ml : (beginRun s).ml = s.ml := rfl
@[simp] theorem beginRun_plen : (beginRun s).plen = s.plen := rfl
@[simp] theorem beginRun_n : (beginRun s).n = s.n := rfl
@[simp] theorem beginRun_phase : (beginRun s).phase = Phase.code .padlen := rfl
@[simp] theorem beginRun_t : (beginRun s).t = s.t := rfl
@[simp] theorem beginRun_status : (beginRun s).status = .busy := rfl
@[simp] theorem beginRun_pins : (beginRun s).pins = s.pins := rfl
@[simp] theorem beginRun_msg : (beginRun s).msg = s.msg := rfl
@[simp] theorem beginRun_msgCap : (beginRun s).msgCap = s.msgCap := rfl
@[simp] theorem beginRun_draws : (beginRun s).draws = s.draws := rfl

/-! ### The exception (R142) -/

@[simp] theorem raiseInvalidLength_h : (raiseInvalidLength s).h = s.h := rfl
@[simp] theorem raiseInvalidLength_a : (raiseInvalidLength s).a = s.a := rfl
@[simp] theorem raiseInvalidLength_b : (raiseInvalidLength s).b = s.b := rfl
@[simp] theorem raiseInvalidLength_c : (raiseInvalidLength s).c = s.c := rfl
@[simp] theorem raiseInvalidLength_d : (raiseInvalidLength s).d = s.d := rfl
@[simp] theorem raiseInvalidLength_e : (raiseInvalidLength s).e = s.e := rfl
@[simp] theorem raiseInvalidLength_w : (raiseInvalidLength s).w = s.w := rfl
@[simp] theorem raiseInvalidLength_blk : (raiseInvalidLength s).blk = s.blk := rfl
@[simp] theorem raiseInvalidLength_digest : (raiseInvalidLength s).digest = s.digest := rfl
@[simp] theorem raiseInvalidLength_len : (raiseInvalidLength s).len = s.len := rfl
@[simp] theorem raiseInvalidLength_ml : (raiseInvalidLength s).ml = s.ml := rfl
@[simp] theorem raiseInvalidLength_plen : (raiseInvalidLength s).plen = s.plen := rfl
@[simp] theorem raiseInvalidLength_n : (raiseInvalidLength s).n = s.n := rfl
@[simp] theorem raiseInvalidLength_phase : (raiseInvalidLength s).phase = Phase.code .wait := rfl
@[simp] theorem raiseInvalidLength_t : (raiseInvalidLength s).t = s.t := rfl
@[simp] theorem raiseInvalidLength_status : (raiseInvalidLength s).status = .error := rfl
@[simp] theorem raiseInvalidLength_pins : (raiseInvalidLength s).pins = s.pins := rfl
@[simp] theorem raiseInvalidLength_msg : (raiseInvalidLength s).msg = s.msg := rfl
@[simp] theorem raiseInvalidLength_msgCap : (raiseInvalidLength s).msgCap = s.msgCap := rfl
@[simp] theorem raiseInvalidLength_draws : (raiseInvalidLength s).draws = s.draws := rfl

/-! ### The end of a run (R120) -/

@[simp] theorem endRun_h : (endRun s).h = s.h := rfl
@[simp] theorem endRun_a : (endRun s).a = s.a := rfl
@[simp] theorem endRun_b : (endRun s).b = s.b := rfl
@[simp] theorem endRun_c : (endRun s).c = s.c := rfl
@[simp] theorem endRun_d : (endRun s).d = s.d := rfl
@[simp] theorem endRun_e : (endRun s).e = s.e := rfl
@[simp] theorem endRun_w : (endRun s).w = s.w := rfl
@[simp] theorem endRun_blk : (endRun s).blk = s.blk := rfl
@[simp] theorem endRun_digest : (endRun s).digest = s.digest := rfl
@[simp] theorem endRun_len : (endRun s).len = s.len := rfl
@[simp] theorem endRun_ml : (endRun s).ml = s.ml := rfl
@[simp] theorem endRun_plen : (endRun s).plen = s.plen := rfl
@[simp] theorem endRun_n : (endRun s).n = s.n := rfl
@[simp] theorem endRun_phase : (endRun s).phase = Phase.code .wait := rfl
@[simp] theorem endRun_t : (endRun s).t = s.t := rfl
@[simp] theorem endRun_status : (endRun s).status = .done := rfl
@[simp] theorem endRun_pins : (endRun s).pins = s.pins := rfl
@[simp] theorem endRun_msg : (endRun s).msg = s.msg := rfl
@[simp] theorem endRun_msgCap : (endRun s).msgCap = s.msgCap := rfl
@[simp] theorem endRun_draws : (endRun s).draws = s.draws := rfl

/-! ### A step with RST asserted (R155): what the spec fixes, and what is the host's -/

@[simp] theorem takeReset_phase : (takeReset s).phase = Phase.code .wait := rfl
@[simp] theorem takeReset_t : (takeReset s).t = BitVec.ofNat 7 (Config.freeResetStepIndex s.draws).val := rfl
@[simp] theorem takeReset_status : (takeReset s).status = .idle := rfl
@[simp] theorem takeReset_pins : (takeReset s).pins = s.pins := rfl
@[simp] theorem takeReset_msg : (takeReset s).msg = s.msg := rfl
@[simp] theorem takeReset_msgCap : (takeReset s).msgCap = s.msgCap := rfl
@[simp] theorem takeReset_draws : (takeReset s).draws = s.draws + 1 := rfl

/-! ### The end of a loop operation (R106, R116) -/

@[simp] theorem State.loopNext_h (t : BitVec 7) (again after : Phase) :
    (s.loopNext t again after).h = s.h := by
  unfold State.loopNext; split <;> rfl
@[simp] theorem State.loopNext_a (t : BitVec 7) (again after : Phase) :
    (s.loopNext t again after).a = s.a := by
  unfold State.loopNext; split <;> rfl
@[simp] theorem State.loopNext_b (t : BitVec 7) (again after : Phase) :
    (s.loopNext t again after).b = s.b := by
  unfold State.loopNext; split <;> rfl
@[simp] theorem State.loopNext_c (t : BitVec 7) (again after : Phase) :
    (s.loopNext t again after).c = s.c := by
  unfold State.loopNext; split <;> rfl
@[simp] theorem State.loopNext_d (t : BitVec 7) (again after : Phase) :
    (s.loopNext t again after).d = s.d := by
  unfold State.loopNext; split <;> rfl
@[simp] theorem State.loopNext_e (t : BitVec 7) (again after : Phase) :
    (s.loopNext t again after).e = s.e := by
  unfold State.loopNext; split <;> rfl
@[simp] theorem State.loopNext_w (t : BitVec 7) (again after : Phase) :
    (s.loopNext t again after).w = s.w := by
  unfold State.loopNext; split <;> rfl
@[simp] theorem State.loopNext_blk (t : BitVec 7) (again after : Phase) :
    (s.loopNext t again after).blk = s.blk := by
  unfold State.loopNext; split <;> rfl
@[simp] theorem State.loopNext_digest (t : BitVec 7) (again after : Phase) :
    (s.loopNext t again after).digest = s.digest := by
  unfold State.loopNext; split <;> rfl
@[simp] theorem State.loopNext_len (t : BitVec 7) (again after : Phase) :
    (s.loopNext t again after).len = s.len := by
  unfold State.loopNext; split <;> rfl
@[simp] theorem State.loopNext_ml (t : BitVec 7) (again after : Phase) :
    (s.loopNext t again after).ml = s.ml := by
  unfold State.loopNext; split <;> rfl
@[simp] theorem State.loopNext_plen (t : BitVec 7) (again after : Phase) :
    (s.loopNext t again after).plen = s.plen := by
  unfold State.loopNext; split <;> rfl
@[simp] theorem State.loopNext_n (t : BitVec 7) (again after : Phase) :
    (s.loopNext t again after).n = s.n := by
  unfold State.loopNext; split <;> rfl
theorem State.loopNext_phase (t : BitVec 7) (again after : Phase) :
    (s.loopNext t again after).phase = if t.toNat = 79 then after.code else again.code := by
  unfold State.loopNext; split <;> rfl
theorem State.loopNext_t (t : BitVec 7) (again after : Phase) :
    (s.loopNext t again after).t = if t.toNat = 79 then s.t else t + 1 := by
  unfold State.loopNext; split <;> rfl
@[simp] theorem State.loopNext_status (t : BitVec 7) (again after : Phase) :
    (s.loopNext t again after).status = s.status := by
  unfold State.loopNext; split <;> rfl
@[simp] theorem State.loopNext_pins (t : BitVec 7) (again after : Phase) :
    (s.loopNext t again after).pins = s.pins := by
  unfold State.loopNext; split <;> rfl
@[simp] theorem State.loopNext_msg (t : BitVec 7) (again after : Phase) :
    (s.loopNext t again after).msg = s.msg := by
  unfold State.loopNext; split <;> rfl
@[simp] theorem State.loopNext_msgCap (t : BitVec 7) (again after : Phase) :
    (s.loopNext t again after).msgCap = s.msgCap := by
  unfold State.loopNext; split <;> rfl
@[simp] theorem State.loopNext_draws (t : BitVec 7) (again after : Phase) :
    (s.loopNext t again after).draws = s.draws := by
  unfold State.loopNext; split <;> rfl

/-! ### A round (R116): the working variables, and every register it leaves alone -/

variable (f : Word → Word → Word → Word) (k : Word) (t : BitVec 7) (ht : t.toNat < 80)

@[simp] theorem roundStep_h :
    (roundStep f k t ht s).h = s.h := by
  simp [roundStep]
@[simp] theorem roundStep_a :
    (roundStep f k t ht s).a = add32 (add32 (add32 (add32 (rotl32 s.a 5) (f s.b s.c s.d)) s.e) k) s.w[t.toNat] := by
  simp [roundStep]
@[simp] theorem roundStep_b :
    (roundStep f k t ht s).b = s.a := by
  simp [roundStep]
@[simp] theorem roundStep_c :
    (roundStep f k t ht s).c = rotl32 s.b 30 := by
  simp [roundStep]
@[simp] theorem roundStep_d :
    (roundStep f k t ht s).d = s.c := by
  simp [roundStep]
@[simp] theorem roundStep_e :
    (roundStep f k t ht s).e = s.d := by
  simp [roundStep]
@[simp] theorem roundStep_w :
    (roundStep f k t ht s).w = s.w := by
  simp [roundStep]
@[simp] theorem roundStep_blk :
    (roundStep f k t ht s).blk = s.blk := by
  simp [roundStep]
@[simp] theorem roundStep_digest :
    (roundStep f k t ht s).digest = s.digest := by
  simp [roundStep]
@[simp] theorem roundStep_len :
    (roundStep f k t ht s).len = s.len := by
  simp [roundStep]
@[simp] theorem roundStep_ml :
    (roundStep f k t ht s).ml = s.ml := by
  simp [roundStep]
@[simp] theorem roundStep_plen :
    (roundStep f k t ht s).plen = s.plen := by
  simp [roundStep]
@[simp] theorem roundStep_n :
    (roundStep f k t ht s).n = s.n := by
  simp [roundStep]
theorem roundStep_phase :
    (roundStep f k t ht s).phase = if t.toNat = 79 then Phase.code .hupd else Phase.code .round := by
  simp [roundStep, State.loopNext_phase]
theorem roundStep_t : (roundStep f k t ht s).t = if t.toNat = 79 then s.t else t + 1 := by
  simp [roundStep, State.loopNext_t]
@[simp] theorem roundStep_status :
    (roundStep f k t ht s).status = s.status := by
  simp [roundStep]
@[simp] theorem roundStep_pins :
    (roundStep f k t ht s).pins = s.pins := by
  simp [roundStep]
@[simp] theorem roundStep_msg :
    (roundStep f k t ht s).msg = s.msg := by
  simp [roundStep]
@[simp] theorem roundStep_msgCap :
    (roundStep f k t ht s).msgCap = s.msgCap := by
  simp [roundStep]
@[simp] theorem roundStep_draws :
    (roundStep f k t ht s).draws = s.draws := by
  simp [roundStep]

end Sys2Proof.Machine
end

