-- ==== Sys2Proof/Laws/Step.lean ====
section
/-! SUPPORT. What a step can do, said once: reset, an instruction's meaning, or nothing; and what each meaning
answers. Later proofs cite these and unfold neither `step` nor `exec`. -/

namespace Sys2Proof.Machine

/-- A step with RST asserted. -/
theorem step_of_rst (s : State) (hr : s.pins.rst = true) : step s = .next (takeReset s) := by
  simp [step, hr]

/-- A step that has an instruction. -/
theorem step_of_fetch (s : State) (i : Instr) (hr : s.pins.rst = false) (hf : s.fetch = .ok i) :
    step s = exec i s := by
  simp [step, hr, hf]

/-- A step that has none. -/
theorem step_of_no_fetch (s : State) (e : DecodeError) (hr : s.pins.rst = false) (hf : s.fetch = .error e) :
    step s = noInstruction e s := by
  simp [step, hr, hf]

/-- While STATUS is BUSY the sequencer position selects (R126, R137). -/
theorem fetch_of_busy (s : State) (hb : s.status = .busy) : s.fetch = decodeSelector s.phase s.t := by
  simp [State.fetch, State.selected, hb, decode]

/-- While STATUS is not BUSY the port START selects (R78). -/
theorem fetch_of_not_busy (s : State) (hb : s.status ≠ .busy) :
    s.fetch = if s.pins.start then .ok .start else .error .noCommand := by
  cases h : s.pins.start <;> simp [State.fetch, State.selected, hb, decode, h]

/-- Where no instruction is selected the machine stays as it is or faults. -/
theorem noInstruction_cases (e : DecodeError) (s : State) :
    noInstruction e s = .next s ∨ noInstruction e s = .fault (.unreachableSelector s.phase s.t) := by
  cases e <;> simp [noInstruction]

/-- Everything a step that answers a next state can have done. -/
theorem step_cases {s s' : State} (h : step s = .next s') :
    (s.pins.rst = true ∧ s' = takeReset s) ∨
    (s.pins.rst = false ∧ ∃ i, s.fetch = .ok i ∧ exec i s = .next s') ∨
    (s.pins.rst = false ∧ (∃ e, s.fetch = .error e) ∧ s' = s) := by
  cases hr : s.pins.rst with
  | true =>
    rw [step_of_rst s hr] at h
    exact .inl ⟨rfl, (Host.Outcome.next.inj h).symm⟩
  | false =>
    cases hf : s.fetch with
    | ok i =>
      rw [step_of_fetch s i hr hf] at h
      exact .inr (.inl ⟨rfl, i, rfl, h⟩)
    | error e =>
      rw [step_of_no_fetch s e hr hf] at h
      refine .inr (.inr ⟨rfl, ⟨e, rfl⟩, ?_⟩)
      rcases noInstruction_cases e s with h' | h'
      · rw [h'] at h; exact (Host.Outcome.next.inj h).symm
      · rw [h'] at h; cases h

/-- START answers the state it was given or the start of a run. -/
theorem exec_start_cases (s : State) :
    (s.status = .busy ∧ exec .start s = .next s) ∨ (s.status ≠ .busy ∧ exec .start s = .next (beginRun s)) := by
  by_cases h : s.status = .busy <;> simp [exec, execStart, h]

/-- PADLEN answers the exception or the bit length. -/
theorem exec_padlen_cases (s : State) :
    (s.len.extractLsb' 61 3 ≠ 0 ∧ exec .padlen s = .next (raiseInvalidLength s)) ∨
    (s.len.extractLsb' 61 3 = 0 ∧ exec .padlen s = .next ({ s with ml := s.len <<< 3 }.goto .padcalc)) := by
  simp only [exec, execPadlen]
  by_cases h : s.len.extractLsb' 61 3 = 0
  · exact .inr ⟨h, by rw [if_neg (not_not.mpr h)]⟩
  · exact .inl ⟨h, by rw [if_pos h]⟩

/-- NEXT answers the next block or the way out of the loop. -/
theorem exec_next_cases (s : State) :
    (s.n.toNat + 1 < s.nblk.toNat ∧ exec .next s = .next ({ s with n := s.n + 1 }.goto .split)) ∨
    (¬ s.n.toNat + 1 < s.nblk.toNat ∧ exec .next s = .next (s.goto .ser)) := by
  by_cases h : s.n.toNat + 1 < s.nblk.toNat <;> simp [exec, execNext, h]

/-- No instruction's meaning is a refusal. -/
theorem exec_ne_refused (i : Instr) (s : State) (r : Refusal) : exec i s ≠ .refused r := by
  cases i <;>
    simp only [exec, execStart, execPadlen, execPadcalc, execHinit, execSplit, execWload, execWexp, execLdwv,
      execRnd0, execRnd1, execRnd2, execRnd3, execHupd, execNext, execSer] <;>
    first
    | (split <;> simp)
    | simp

end Sys2Proof.Machine
end

