-- ==== Sys2Proof/Tests/Slice0.lean ====
section
/-! SUPPORT. Tests: ill-formed instructions, words written out from spec/30_encoding.md, one step of each instruction
with the values of the spec's own examples, and a witness for the hypotheses of every statement that has some. -/

namespace Sys2Proof.Tests
open Sys2Proof Sys2Proof.Machine

/-! ### Helpers -/

/-- The outcome is a next state with a property. -/
def endsWith (o : Host.Outcome State Fault Refusal) (p : State → Bool) : Bool :=
  match o with
  | .next s => p s
  | .fault _ => false
  | .refused _ => false

/-- A state in the middle of a run, at a position. -/
def at_ (phase : BitVec 4) (t : BitVec 7) : State :=
  { State.reset with status := .busy, phase := phase, t := t }

/-- The message 61 62 63 ("abc") in memory with its length, and PADLEN and PADCALC done. -/
def abc : State :=
  { at_ 0x4 0 with
    msg := [(0, 0x61), (1, 0x62), (2, 0x63)]
    len := 3
    ml := 0x18
    plen := 64 }

/-- The block of "abc" (spec/95, V-S2). -/
def abcBlock : Vector Byte 64 :=
  Vector.ofFn fun k => if k.val = 0 then 0x61 else if k.val = 1 then 0x62 else if k.val = 2 then 0x63
    else if k.val = 3 then 0x80 else if k.val = 63 then 0x18 else 0

/-- Working variables and one schedule word, the rest zero. -/
def inRound (a b c d e : Word) (t : BitVec 7) (wt : Word) : State :=
  { at_ 0x8 t with a := a, b := b, c := c, d := d, e := e, w := Vector.ofFn fun i => if i.val = t.toNat then wt else 0 }

/-- A state's working variables and index. -/
def hasVars (s : State) (a b c d e : Word) (t : BitVec 7) : Bool :=
  s.a == a && s.b == b && s.c == c && s.d == d && s.e == e && s.t == t

/-! ### Well-formedness (R80, R82) -/

theorem test_wellFormed_refuses_wexp : [15, 80, 0, 127].map (fun t => Instr.wellFormed (.wexp t)) = [false, false, false, false] := by
  decide
theorem test_wellFormed_refuses_rnd0 : [20, 127].map (fun t => Instr.wellFormed (.rnd0 t)) = [false, false] := by decide
theorem test_wellFormed_refuses_rnd1 : [19, 40].map (fun t => Instr.wellFormed (.rnd1 t)) = [false, false] := by decide
theorem test_wellFormed_refuses_rnd2 : [39, 60].map (fun t => Instr.wellFormed (.rnd2 t)) = [false, false] := by decide
theorem test_wellFormed_refuses_rnd3 : [59, 80].map (fun t => Instr.wellFormed (.rnd3 t)) = [false, false] := by decide

/-! ### Decoding: words written out bit by bit, PPPP TTTTTTT (R31, R78 to R80) -/

theorem test_decode_start : decodeTableWord 8 0b1 = some .start := by decide
theorem test_decode_padlen : decodeTableWord 16 0b0001_0000000 = some .padlen := by decide
theorem test_decode_padcalc : decodeTableWord 16 0b0010_0000000 = some .padcalc := by decide
theorem test_decode_hinit : decodeTableWord 16 0b0011_0000000 = some .hinit := by decide
theorem test_decode_split : decodeTableWord 16 0b0100_0000000 = some .split := by decide
theorem test_decode_wload : decodeTableWord 16 0b0101_0000000 = some .wload := by decide
theorem test_decode_wexp : decodeTableWord 16 0b0110_0010001 = some (.wexp 17) := by decide
theorem test_decode_ldwv : decodeTableWord 16 0b0111_1001111 = some .ldwv := by decide
theorem test_decode_rnd0 : decodeTableWord 16 0b1000_0000000 = some (.rnd0 0) := by decide
theorem test_decode_rnd1 : decodeTableWord 16 0b1000_0100111 = some (.rnd1 39) := by decide
theorem test_decode_rnd2 : decodeTableWord 16 0b1000_0101000 = some (.rnd2 40) := by decide
theorem test_decode_rnd3 : decodeTableWord 16 0b1000_1001111 = some (.rnd3 79) := by decide
theorem test_decode_hupd : decodeTableWord 16 0b1001_1001111 = some .hupd := by decide
theorem test_decode_next : decodeTableWord 16 0b1010_0000000 = some .next := by decide
theorem test_decode_ser : decodeTableWord 16 0b1011_0000000 = some .ser := by decide

/-- START = 0, PH_WAIT, a reserved phase, T = 80, T = 15 in PH_WEXP, and a bit no format has. -/
theorem test_decode_rejects_by_name :
    decodeWord 8 0b0 = .error .noCommand ∧ decodeWord 16 0b0000_0000000 = .error .sequencerStopped ∧
    decodeWord 16 0b1111_0000000 = .error .reservedPhase ∧ decodeWord 16 0b0101_1010000 = .error .unreachableIndex ∧
    decodeWord 16 0b0110_0001111 = .error .unreachableIndex ∧ decodeWord 16 0b1_0001_0000000 = .error .noSuchField ∧
    decodeBytes [] = .error .noSuchField := by decide

/-- The first byte holds the lower bits: 0x0311 is PHASE 6, T 17. -/
theorem test_decode_bytes : decodeBytes [0x11, 0x03] = .ok (.wexp 17) := by decide

/-! ### One step of each instruction -/

/-- START, the example of R125. -/
theorem test_start : endsWith (exec .start { State.reset with pins := startPins 3 })
    (fun s => s.len == 3 && readStatus s == 1 && s.phase == 0x1) = true := by decide

/-- PADLEN, the example of R90. -/
theorem test_padlen : endsWith (exec .padlen { at_ 0x1 0 with len := 3 })
    (fun s => s.ml == 0x18 && s.phase == 0x2) = true := by decide

/-- InvalidLength at 2^61, the smallest illegal length (R140, R142), and none at 2^61 - 1. -/
theorem test_padlen_illegal : endsWith (exec .padlen { at_ 0x1 0 with len := 0x2000000000000000 })
    (fun s => readStatus s == 3 && s.phase == 0x0 && s.ml == 0) = true ∧
    endsWith (exec .padlen { at_ 0x1 0 with len := 0x1FFFFFFFFFFFFFFF })
      (fun s => readStatus s == 1 && s.ml == 0xFFFFFFFFFFFFFFF8) = true := by decide

/-- PADCALC, the example of R91: LEN = 3 gives 64. -/
theorem test_padcalc : endsWith (exec .padcalc { at_ 0x2 0 with len := 3 })
    (fun s => s.plen == 64 && s.phase == 0x3) = true := by decide

/-- PADCALC where the length field does not fit the block: LEN = 55 gives 64, 56 gives 128 (R91, R94). -/
theorem test_padcalc_boundary :
    endsWith (exec .padcalc { at_ 0x2 0 with len := 55 }) (fun s => s.plen == 64) = true ∧
    endsWith (exec .padcalc { at_ 0x2 0 with len := 56 }) (fun s => s.plen == 128 && s.nblk == 2) = true := by decide

/-- HINIT, the example of R110. -/
theorem test_hinit : endsWith (exec .hinit { at_ 0x3 0 with n := 5 })
    (fun s => s.h == #v[0x67452301, 0xEFCDAB89, 0x98BADCFE, 0x10325476, 0xC3D2E1F0] && s.n == 0 && s.phase == 0x4) =
      true := by decide

/-- SPLIT, the example of R100. -/
theorem test_split : endsWith (exec .split abc) (fun s => s.blk == abcBlock && s.phase == 0x5) = true := by
  decide +kernel

/-- WLOAD, the example of R105. -/
theorem test_wload : endsWith (exec .wload { at_ 0x5 0 with blk := abcBlock })
    (fun s => s.w[0] == 0x61626380 && s.w[15] == 0x00000018 && s.w[1] == 0 && s.t == 16 && s.phase == 0x6) = true := by
  decide +kernel

/-- WEXP at T = 16, the example of R106. -/
theorem test_wexp : endsWith (exec (.wexp 16) { at_ 0x6 16 with w := State.reset.w.set 0 0x61626380 })
    (fun s => s.w[16] == 0xC2C4C700 && s.t == 17 && s.phase == 0x6) = true := by decide +kernel

/-- WEXP reads the taps t-3, t-8, t-14 and t-16 and no other, each rotated by one; T = 79 leaves for PH_LDWV (R106). -/
theorem test_wexp_taps : endsWith (exec (.wexp 79)
      { at_ 0x6 79 with w := Vector.ofFn fun i => if i.val = 76 then 0x80000000 else if i.val = 71 then 0x1
          else if i.val = 65 then 0x10 else if i.val = 63 then 0x100 else if i.val = 78 then 0xFFFF0000 else 0 })
    (fun s => s.w[79] == 0x00000223 && s.t == 79 && s.phase == 0x7) = true := by decide +kernel

/-- LDWV, the example of R111. -/
theorem test_ldwv : endsWith (exec .ldwv { at_ 0x7 79 with h := IV })
    (fun s => hasVars s 0x67452301 0xEFCDAB89 0x98BADCFE 0x10325476 0xC3D2E1F0 0 && s.phase == 0x8) = true := by decide

/-- RND0, the example of R112 (T = 0). -/
theorem test_rnd0 :
    endsWith (exec (.rnd0 0) (inRound 0x67452301 0xEFCDAB89 0x98BADCFE 0x10325476 0xC3D2E1F0 0 0x61626380))
      (fun s => hasVars s 0x0116FC33 0x67452301 0x7BF36AE2 0x98BADCFE 0x10325476 1) = true := by decide +kernel

/-- RND1, the example of R113 (T = 20). -/
theorem test_rnd1 :
    endsWith (exec (.rnd1 20) (inRound 0xFD9E1D7D 0xDC64901D 0x20AA99CA 0xD3A49608 0xC82F758B 20 0))
      (fun s => hasVars s 0x1A37B0CA 0xFD9E1D7D 0x77192407 0x20AA99CA 0xD3A49608 21) = true := by decide +kernel

/-- RND2, the example of R114 (T = 40). -/
theorem test_rnd2 :
    endsWith (exec (.rnd2 40) (inRound 0x32DE1CBA 0x4C986405 0xF718E5CF 0x03D447F6 0xF72EEC32 40 0xD2E138C4))
      (fun s => hasVars s 0xFC87DEDF 0x32DE1CBA 0x53261901 0xF718E5CF 0x03D447F6 41) = true := by decide +kernel

/-- RND3, the example of R115 (T = 60). -/
theorem test_rnd3 :
    endsWith (exec (.rnd3 60) (inRound 0x3F52DE5A 0x09D785FD 0x3498BFD4 0xF211824F 0xD79915AB 60 0x7BA06619))
      (fun s => hasVars s 0xD756C147 0x3F52DE5A 0x4275E17F 0x3498BFD4 0xF211824F 61 && s.phase == 0x8) = true := by
  decide +kernel

/-- RND3 at T = 79 leaves for PH_HUPD (R115, R116). -/
theorem test_rnd3_last : endsWith (exec (.rnd3 79) (at_ 0x8 79)) (fun s => s.phase == 0x9) = true := by decide +kernel

/-- HUPD, the example of R117, with an addition that wraps. -/
theorem test_hupd :
    endsWith (exec .hupd { inRound 0x42541B35 0x5738D5E1 0x21834873 0x681E6DF6 0xD8FDF6AD 79 0 with h := IV })
      (fun s => s.h == #v[0xA9993E36, 0x4706816A, 0xBA3E2571, 0x7850C26C, 0x9CD0D89D] && s.phase == 0xA) = true := by
  decide +kernel

/-- NEXT, the example of R131: two blocks. -/
theorem test_next :
    endsWith (exec .next { at_ 0xA 79 with plen := 128 }) (fun s => s.n == 1 && s.phase == 0x4) = true ∧
    endsWith (exec .next { at_ 0xA 79 with plen := 128, n := 1 }) (fun s => s.n == 1 && s.phase == 0xB) = true := by
  decide

/-- NEXT with one block: N stays 0 (R131). -/
theorem test_next_one_block :
    endsWith (exec .next { at_ 0xA 79 with plen := 64 }) (fun s => s.n == 0 && s.phase == 0xB) = true := by decide

/-- SER, the example of R120. -/
theorem test_ser :
    endsWith (exec .ser { at_ 0xB 79 with h := #v[0xA9993E36, 0x4706816A, 0xBA3E2571, 0x7850C26C, 0x9CD0D89D] })
      (fun s => s.digest == #v[0xA9, 0x99, 0x3E, 0x36, 0x47, 0x06, 0x81, 0x6A, 0xBA, 0x3E, 0x25, 0x71, 0x78, 0x50,
        0xC2, 0x6C, 0x9C, 0xD0, 0xD8, 0x9D] && readStatus s == 2 && s.phase == 0x0) = true := by decide +kernel

/-! ### The step, reset and the ports -/

/-- A placed word is what the next step runs, after reset and during a run (log 18). -/
theorem test_place_start : endsWith (step (State.reset.withFetchWord 8 1)) (fun s => readStatus s == 1) = true ∧
    endsWith (step ((at_ 0x5 3).withFetchWord 8 1)) (fun s => s.phase == 0x1) = true := by decide
theorem test_place_wexp : endsWith (step (State.reset.withFetchWord 16 0b0110_1001111)) (fun s => s.phase == 0x7) =
    true := by decide +kernel

/-- RST wins over SER and over START (R155). -/
theorem test_rst : endsWith (step { at_ 0xB 0 with pins := { startPins 3 with rst := true } })
    (fun s => readStatus s == 0 && s.phase == 0x0) = true := by decide +kernel

/-- A reserved phase and an index below 16 in PH_WEXP fault (R82). -/
theorem test_unreachable : step (at_ 0xC 0) = .fault (.unreachableSelector 0xC 0) ∧
    step (at_ 0x6 15) = .fault (.unreachableSelector 0x6 15) ∧
    exec (.wexp 15) State.reset = .fault (.indexNotSelecting 15) := ⟨rfl, rfl, rfl⟩

/-- HEX, the example of R122: A9 99 3E 36 gives "a9993e36". -/
theorem test_hex : (hexView (Vector.ofFn fun m => if m.val = 0 then 0xA9 else if m.val = 1 then 0x99
      else if m.val = 2 then 0x3E else 0x36)).toList.take 8 =
    [0x61, 0x39, 0x39, 0x39, 0x33, 0x65, 0x33, 0x36] := by decide +kernel

/-- Writing the value an unlisted address reads as removes the entry; the order is kept. -/
theorem test_memory_canonical :
    Memory.write [(1, 0x11), (3, 0x33)] 2 0x22 = [(1, 0x11), (2, 0x22), (3, 0x33)] ∧
    Memory.write [(1, 0x11), (3, 0x33)] 3 0x00 = [(1, 0x11)] ∧ Memory.read [(1, 0x11), (3, 0x33)] 3 = 0x33 := by decide

/-! ### Witnesses: the hypotheses of each statement hold of a concrete input -/

/-- Pins that ask for nothing, for `k` steps. -/
def quiet (k : Nat) : List Pins := List.replicate k { rst := false, start := false, msgLen := 0 }

theorem quiet_noReset (k : Nat) : noReset (quiet k) := by
  intro p hp
  rw [List.eq_of_mem_replicate hp]

/-- A state between runs whose memory holds "abc", with a STATUS. -/
def abcIdle (status : Status) : State := { abc with status := status, phase := 0x0 }

/-- What the invariant asks of "abc" whatever the position. -/
theorem abc_facts : Memory.wf abc.msg ∧ abc.len.toNat < 2 ^ 61 ∧ abc.ml.toNat = 8 * abc.len.toNat ∧
    abc.plen.toNat = 64 * ((abc.len.toNat + 72) / 64) ∧ abc.n.toNat < abc.plen.toNat / 64 := by decide

/-- The invariant right after reset. -/
theorem witness_Inv_reset : State.reset.Inv :=
  { memory := by decide
    phase := by decide
    index := by decide
    busy := by decide
    expanding := by decide
    length := fun h => absurd h (by simp [State.pastPadlen, State.reset, Phase.code])
    bits := fun h => absurd h (by simp [State.pastPadlen, State.reset, Phase.code])
    padded := fun h => absurd h (by simp [State.pastPadcalc, State.reset, Phase.code])
    block := fun h => absurd h.1 (by simp [State.reset, Phase.code]) }

/-- The invariant at every phase of a run of "abc", at every index from 16 on. -/
theorem witness_Inv_at (p : BitVec 4) (t : BitVec 7) (hlo : 1 ≤ p.toNat) (hhi : p.toNat ≤ 11) (ht : 16 ≤ t.toNat)
    (ht' : t.toNat ≤ 79) : { abc with phase := p, t := t }.Inv :=
  { memory := abc_facts.1
    phase := hhi
    index := ht'
    busy := ⟨fun _ h => by simp_all [Phase.code], fun _ => rfl⟩
    expanding := fun _ => ht
    length := fun _ => abc_facts.2.1
    bits := fun _ => abc_facts.2.2.1
    padded := fun _ => abc_facts.2.2.2.1
    block := fun _ => abc_facts.2.2.2.2 }

/-- The invariant in PH_PADLEN with an illegal length, before the check. -/
theorem witness_Inv_illegal : { at_ 0x1 0 with len := 0x2000000000000000 }.Inv :=
  { memory := by decide
    phase := by decide
    index := by decide
    busy := by decide
    expanding := by decide
    length := fun h => absurd h (by simp [State.pastPadlen, at_])
    bits := fun h => absurd h (by simp [State.pastPadlen, at_])
    padded := fun h => absurd h (by simp [State.pastPadcalc, at_])
    block := fun h => absurd h.1 (by simp [at_]) }

/-- The invariant between runs, with "abc" in memory. -/
theorem witness_Inv_idle (st : Status) (h : st ≠ .busy) : (abcIdle st).Inv :=
  { memory := abc_facts.1
    phase := by simp [abcIdle]
    index := by simp [abcIdle, abc, at_]
    busy := by simp [abcIdle, h, Phase.code]
    expanding := fun hp => absurd hp (by simp [abcIdle, Phase.code])
    length := fun hp => absurd hp (by simp [State.pastPadlen, abcIdle])
    bits := fun hp => absurd hp (by simp [State.pastPadlen, abcIdle])
    padded := fun hp => absurd hp (by simp [State.pastPadcalc, abcIdle])
    block := fun hp => absurd hp.1 (by simp [abcIdle]) }

theorem witness_Be32AssemblesAndByteBeSlices : 0 < 4 ∧ 3 < 4 ∧ 7 < 8 := by decide

theorem witness_Rotl32RotatesEveryBit : 31 < 32 ∧ 0 % 32 = 0 ∧ 32 % 32 = 0 ∧ 1 % 32 ≠ 0 ∧ 31 % 32 ≠ 0 ∧ 33 % 32 ≠ 0 := by
  decide

theorem witness_DecodeOfEncodeIsIdentity :
    [Instr.start, .padlen, .padcalc, .hinit, .split, .wload, .wexp 16, .wexp 79, .ldwv, .rnd0 0, .rnd0 19, .rnd1 20,
      .rnd1 39, .rnd2 40, .rnd2 59, .rnd3 60, .rnd3 79, .hupd, .next, .ser].all Instr.wellFormed = true := by decide

theorem witness_DecodedSelectorIsEncoding :
    decode (.u 0x6 16) = .ok (.wexp 16) ∧ decode (.u 0x8 79) = .ok (.rnd3 79) ∧ decode (.u 0x1 79) = .ok .padlen := by
  decide

theorem witness_UnreachableSelectorsFault :
    (at_ 0xC 0).pins.rst = false ∧ (at_ 0xC 0).status = .busy ∧ step (at_ 0xF 79) = .fault (.unreachableSelector 0xF 79) ∧
    step (at_ 0xB 80) = .fault (.unreachableSelector 0xB 80) ∧ State.reset.Inv ∧ step State.reset = .next State.reset :=
  ⟨rfl, rfl, rfl, rfl, witness_Inv_reset, rfl⟩

theorem witness_RoundSelectedByRange :
    [0, 19, 20, 39, 40, 59, 60, 79].all (fun t => decide ((BitVec.ofNat 7 t).toNat ≤ 79)) = true := by decide

theorem witness_IllFormedIndexFaults :
    Instr.wellFormed (.wexp 15) = false ∧ Instr.wellFormed (.wexp 80) = false ∧ Instr.wellFormed (.rnd0 20) = false ∧
    Instr.wellFormed (.rnd1 19) = false ∧ Instr.wellFormed (.rnd1 40) = false ∧ Instr.wellFormed (.rnd2 39) = false ∧
    Instr.wellFormed (.rnd2 60) = false ∧ Instr.wellFormed (.rnd3 59) = false ∧ Instr.wellFormed (.rnd3 80) = false := by
  decide

theorem witness_ResetOverridesEverything :
    { at_ 0xB 0 with pins := { startPins 3 with rst := true } }.pins.rst = true ∧
    State.reset.pins.rst = false ∧ State.reset.pins.start = false := by decide

theorem witness_StepRunsDecodedInstruction :
    (at_ 0x6 16).pins.rst = false ∧ (at_ 0x6 16).status = .busy ∧
    decode (.u (at_ 0x6 16).phase (at_ 0x6 16).t) = .ok (.wexp 16) ∧
    { State.reset with pins := startPins 3 }.status ≠ .busy ∧
    { State.reset with pins := startPins 3 }.pins.start = true := by decide

theorem witness_IdleMachineHoldsItsState :
    (abcIdle .done).pins.rst = false ∧ (abcIdle .done).status ≠ .busy ∧ (abcIdle .done).pins.start = false := by decide

theorem witness_StartBeginsRun :
    (abcIdle .idle).status ≠ .busy ∧ (abcIdle .done).status ≠ .busy ∧ (abcIdle .error).status ≠ .busy := by decide

theorem witness_StartWhileBusyIsIgnored :
    abc.status = .busy ∧ (startPins 3).rst = false ∧ abc.pins.rst = false ∧
    step { at_ 0xA 0 with pins := startPins 3 } = .next { at_ 0xB 0 with pins := startPins 3 } ∧
    step { at_ 0xC 0 with pins := startPins 3 } = .fault (.unreachableSelector 0xC 0) := ⟨rfl, rfl, rfl, rfl, rfl⟩

/-- The smallest and the largest legal and illegal lengths. -/
theorem witness_PadlenChecksAndScalesLength :
    State.reset.len.toNat < 2 ^ 61 ∧ { State.reset with len := 0x1FFFFFFFFFFFFFFF }.len.toNat < 2 ^ 61 ∧
    2 ^ 61 ≤ { State.reset with len := 0x2000000000000000 }.len.toNat ∧
    2 ^ 61 ≤ { State.reset with len := 0xFFFFFFFFFFFFFFFF }.len.toNat := by decide

theorem witness_InvalidLengthEntryIsPrecise : 2 ^ 61 ≤ { State.reset with len := 0x2000000000000000 }.len.toNat := by
  decide

theorem witness_IllegalLengthEndsInErrorAndRepeats :
    State.reset.Inv ∧ State.reset.status ≠ .busy ∧ 2 ^ 61 ≤ (0x2000000000000000 : Length).toNat ∧
    State.reset.pins.rst = false := ⟨witness_Inv_reset, by decide, by decide, rfl⟩

/-- LEN = 55 meets the first clause at its boundary, LEN = 56 the second. -/
theorem witness_PadcalcFollowsBitFormula :
    8 * ({ State.reset with len := 55 }.len.toNat + 1) % 512 ≤ 448 ∧
    448 < 8 * ({ State.reset with len := 56 }.len.toNat + 1) % 512 := by decide

theorem witness_PaddedLengthClosedForm :
    { State.reset with len := 55 }.len.toNat % 64 ≤ 55 ∧ 56 ≤ { State.reset with len := 56 }.len.toNat % 64 ∧
    { State.reset with len := 55 }.len.toNat + 9 ≤ 64 * 1 ∧
    { State.reset with len := 0x1FFFFFFFFFFFFFFF }.len.toNat < 2 ^ 61 := by decide

theorem witness_PadByteIsByteOfPaddedMessage :
    abc.len.toNat ≤ abc.msgCap.toNat ∧ abc.ml.toNat = 8 * abc.len.toNat ∧
    abc.plen.toNat = 64 * ((abc.len.toNat + 72) / 64) ∧ 0 < abc.plen.toNat ∧ 63 < abc.plen.toNat := by decide

theorem witness_PaddingIsInjective :
    ([0x61] : List Byte).length < 2 ^ 61 ∧ pad ([0x61] : List Byte) = pad [0x61] := ⟨by decide, rfl⟩

/-- The four clauses at the ends of their ranges: k = 2, 3, 4, 55, 56 and 63. -/
theorem witness_SplitLoadsBlock :
    abc.len.toNat + 9 ≤ abc.plen.toNat ∧ abc.n.toNat < abc.plen.toNat / 64 ∧
    64 * abc.n.toNat + 2 < abc.len.toNat ∧ 64 * abc.n.toNat + 2 < abc.msgCap.toNat ∧
    64 * abc.n.toNat + 3 = abc.len.toNat ∧
    abc.len.toNat < 64 * abc.n.toNat + 4 ∧ 64 * abc.n.toNat + 55 + 8 < abc.plen.toNat ∧
    abc.plen.toNat ≤ 64 * abc.n.toNat + 56 + 8 ∧ abc.plen.toNat ≤ 64 * abc.n.toNat + 63 + 8 := by decide

/-- A memory that differs from "abc" at address 3 only, where the block has the marker. -/
theorem witness_SplitReadsOnlyItsBlock :
    (∀ addr, 64 * abc.n.toNat ≤ addr → addr ≤ 64 * abc.n.toNat + 63 → addr < abc.len.toNat → addr < abc.msgCap.toNat →
      Memory.read [(0, 0x61), (1, 0x62), (2, 0x63), (3, 0x64)] addr = Memory.read abc.msg addr) ∧
    ∃ s', exec .split abc = .next s' := by
  refine ⟨?_, _, rfl⟩
  intro addr _ _ h _
  have h3 : addr < 3 := h
  interval_cases addr <;> rfl

theorem witness_BlocksPartitionPaddedMessage : ∃ b, (blocks [0x61])[0]? = some b := ⟨_, rfl⟩

theorem witness_WexpExpandsOneWord :
    16 ≤ (16 : BitVec 7).toNat ∧ (16 : BitVec 7).toNat < 79 ∧ 16 ≤ (79 : BitVec 7).toNat ∧ (79 : BitVec 7).toNat = 79 := by
  decide

theorem witness_ScheduleIsFunctionOfBlock :
    (at_ 0x5 0).status = .busy ∧ (at_ 0x5 0).phase = 0x5 ∧ (at_ 0x5 0).t.toNat ≤ 79 ∧ noReset (quiet 65) ∧
    (quiet 65).length = 65 := ⟨rfl, rfl, by decide, quiet_noReset 65, by simp [quiet]⟩

theorem witness_LengthFieldIsLastTwoWords :
    abc.len.toNat + 9 ≤ abc.plen.toNat ∧ abc.plen.toNat = 64 * (abc.n.toNat + 1) := by decide

theorem witness_Rounds :
    (0 : BitVec 7).toNat ≤ 19 ∧ (19 : BitVec 7).toNat ≤ 19 ∧ 20 ≤ (20 : BitVec 7).toNat ∧ (39 : BitVec 7).toNat ≤ 39 ∧
    40 ≤ (40 : BitVec 7).toNat ∧ (59 : BitVec 7).toNat ≤ 59 ∧ 60 ≤ (60 : BitVec 7).toNat ∧
    (60 : BitVec 7).toNat < 79 ∧ (79 : BitVec 7).toNat = 79 := by decide

theorem witness_BlockOperationsCompress :
    (at_ 0x5 0).status = .busy ∧ (at_ 0x5 0).phase = 0x5 ∧ (at_ 0x5 0).t.toNat ≤ 79 ∧ noReset (quiet 147) ∧
    (quiet 147).length = 147 := ⟨rfl, rfl, by decide, quiet_noReset 147, by simp [quiet]⟩

theorem witness_NextStepsBlockOrLeaves :
    { State.reset with plen := 128 }.n.toNat + 1 < { State.reset with plen := 128 }.plen.toNat / 64 ∧
    abc.plen.toNat / 64 ≤ abc.n.toNat + 1 := by decide

theorem witness_DigestReadableWhenDone : (abcIdle .done).status = .done := rfl

/-- Both sides of each digit's boundary: nibbles 9 and A. -/
theorem witness_HexViewIsLowercaseHex :
    hexView (Vector.replicate 20 0x9A) = hexView (Vector.replicate 20 0x9A) ∧ (0x9A : Byte).toNat / 16 < 10 ∧
    ¬ (0x9A : Byte).toNat % 16 < 10 ∧ 19 < 20 ∧ 39 < 40 := ⟨rfl, by decide, by decide, by decide, by decide⟩

theorem witness_HostWritesOnlyWhileNotBusy :
    Memory.wf abc.msg ∧ abc.status = .busy ∧ (abcIdle .done).status ≠ .busy ∧
    (0 : BitVec 61).toNat < (abcIdle .done).msgCap.toNat ∧
    (BitVec.allOnes 61 - 1).toNat < (abcIdle .done).msgCap.toNat := by decide

theorem witness_StepLeavesMessageMemory : ∃ s', step abc = .next s' := ⟨_, rfl⟩

theorem witness_CanonicalMemoryIsDeterminedByReads :
    Memory.wf abc.msg ∧ ∀ addr, Memory.read abc.msg addr = Memory.read abc.msg addr := ⟨by decide, fun _ => rfl⟩

/-- Each register that the statement names changes in some operation. -/
theorem witness_RegistersHaveTheirWriters :
    endsWith (exec .hinit (at_ 0x3 0)) (fun s => s.h != (at_ 0x3 0).h) = true ∧
    endsWith (exec .ldwv { at_ 0x7 5 with h := IV }) (fun s => s.a != 0 && s.b != 0 && s.c != 0 && s.d != 0 && s.e != 0) =
      true ∧
    endsWith (exec .wload { at_ 0x5 0 with blk := abcBlock }) (fun s => s.w != (at_ 0x5 0).w && s.t != 0) = true ∧
    endsWith (exec .split abc) (fun s => s.blk != abc.blk) = true ∧
    endsWith (exec .ser { at_ 0xB 0 with h := IV }) (fun s => s.digest != (at_ 0xB 0).digest && s.status != .busy) = true ∧
    endsWith (exec .start { State.reset with pins := startPins 3 }) (fun s => s.len != 0) = true ∧
    endsWith (exec .padlen { at_ 0x1 0 with len := 3 }) (fun s => s.ml != 0) = true ∧
    endsWith (exec .padcalc { at_ 0x2 0 with len := 3 }) (fun s => s.plen != 0) = true ∧
    endsWith (exec .next { at_ 0xA 0 with plen := 128 }) (fun s => s.n != 0) = true := by decide +kernel

/-- The condition of every row of the table, in a state of the invariant (`witness_Inv_at`, `witness_Inv_idle`,
`witness_Inv_illegal`), with a next state. -/
theorem witness_TransitionTableIsFollowed :
    (∀ p < 12, 1 ≤ p → { abc with phase := BitVec.ofNat 4 p, t := 79 }.Inv ∧
      ∃ s', step { abc with phase := BitVec.ofNat 4 p, t := 79 } = .next s') ∧
    ({ abc with phase := 0x6, t := 16 }.Inv ∧ ∃ s', step { abc with phase := 0x6, t := 16 } = .next s') ∧
    ({ abc with phase := 0x8, t := 78 }.Inv ∧ ∃ s', step { abc with phase := 0x8, t := 78 } = .next s') ∧
    ({ at_ 0x1 0 with len := 0x2000000000000000 }.Inv ∧
      ∃ s', step { at_ 0x1 0 with len := 0x2000000000000000 } = .next s') ∧
    ((abcIdle .done).Inv ∧ step (abcIdle .done) = .next (abcIdle .done)) := by
  refine ⟨?_, ⟨witness_Inv_at 0x6 16 (by decide) (by decide) (by decide) (by decide), _, rfl⟩,
    ⟨witness_Inv_at 0x8 78 (by decide) (by decide) (by decide) (by decide), _, rfl⟩,
    ⟨witness_Inv_illegal, _, rfl⟩, witness_Inv_idle _ (by decide), rfl⟩
  intro p hp hp'
  refine ⟨witness_Inv_at _ 79 (by rw [BitVec.toNat_ofNat]; omega) (by rw [BitVec.toNat_ofNat]; omega) (by decide)
    (by decide), ?_⟩
  interval_cases p <;> exact ⟨_, rfl⟩

/-- The row of NEXT that goes back to SPLIT: two blocks. -/
theorem witness_TransitionTable_next : { abc with len := 56, ml := 448, plen := 128, phase := 0xA }.Inv :=
  { memory := by decide
    phase := by decide
    index := by decide
    busy := by decide
    expanding := by decide
    length := fun _ => by decide
    bits := fun _ => by decide
    padded := fun _ => by decide
    block := fun _ => by decide }

theorem witness_StepKeepsInvariant : abc.Inv ∧ ∃ s', step abc = .next s' :=
  ⟨{ memory := by decide, phase := by decide, index := by decide, busy := by decide, expanding := by decide,
     length := fun _ => by decide, bits := fun _ => by decide, padded := fun _ => by decide,
     block := fun _ => by decide }, _, rfl⟩

theorem witness_HostMovesKeepInvariant :
    (abcIdle .done).Inv ∧ (∃ s', hostMove (.setPins (startPins 3)) (abcIdle .done) = .next s') ∧
    (∃ s', hostMove (.writeMessage 0 0x00) (abcIdle .done) = .next s') ∧
    ∃ s', hostMove .readPorts (abcIdle .done) = .next s' :=
  ⟨witness_Inv_idle _ (by decide), ⟨_, rfl⟩, ⟨_, rfl⟩, _, rfl⟩

theorem witness_MachineNeverStops : State.reset.Inv := witness_Inv_reset

theorem witness_RunEndsAfterExactCount :
    (abcIdle .error).Inv ∧ (abcIdle .error).status ≠ .busy ∧ (3 : Length).toNat < 2 ^ 61 ∧ noReset (quiet 153) ∧
    (quiet 153).length = 4 + 149 * (((3 : Length).toNat + 72) / 64) ∧ 0 < (quiet 153).length ∧
    152 < (quiet 153).length ∧ 2 ^ 61 ≤ (0x2000000000000000 : Length).toNat :=
  ⟨witness_Inv_idle _ (by decide), by decide, by decide, quiet_noReset 153, by simp [quiet], by simp [quiet],
    by simp [quiet], by decide⟩

theorem witness_RunComputesDigest :
    (abcIdle .idle).Inv ∧ (abcIdle .idle).status ≠ .busy ∧ (3 : Length).toNat ≤ (abcIdle .idle).msgCap.toNat ∧
    noReset (quiet 153) ∧ (quiet 153).length = 4 + 149 * (paddedLength (3 : Length).toNat / 64) ∧
    2 ^ 61 ≤ (0x2000000000000000 : Length).toNat :=
  ⟨witness_Inv_idle _ (by decide), by decide, by decide, quiet_noReset 153, by simp [quiet, paddedLength], by decide⟩

/-- Two states with the same message and different histories, and different pins during the runs. -/
theorem witness_RunsAreIndependentOfHistory :
    (abcIdle .done).Inv ∧ (abcIdle .error).Inv ∧ (abcIdle .done) ≠ (abcIdle .error) ∧
    (∀ addr < (3 : Length).toNat, Memory.read (abcIdle .done).msg addr = Memory.read (abcIdle .error).msg addr) ∧
    noReset (quiet 153) ∧ noReset (List.replicate 153 (startPins 7)) ∧
    (quiet 153).length = (List.replicate 153 (startPins 7)).length ∧
    (quiet 153).length = 4 + 149 * (paddedLength (3 : Length).toNat / 64) ∧
    2 ^ 61 ≤ (0x2000000000000000 : Length).toNat ∧ noReset (quiet 1) ∧ (quiet 1).length = 1 :=
  ⟨witness_Inv_idle _ (by decide), witness_Inv_idle _ (by decide), by decide, fun _ _ => rfl, quiet_noReset 153,
    (by intro p hp; rw [List.eq_of_mem_replicate hp]; rfl), by simp [quiet], by simp [quiet, paddedLength], by decide,
    quiet_noReset 1, by simp [quiet]⟩

end Sys2Proof.Tests
end

/-! The arithmetic of spec/00_scope.md section 4: what add32, rotl32, be32 and byteBe are as numbers and bit by bit. -/

namespace Sys2Proof.Machine

/-! ### add32 (R11) -/

@[simp] theorem add32_toNat (x y : Word) : (add32 x y).toNat = (x.toNat + y.toNat) % 2 ^ 32 :=
  BitVec.toNat_add x y

theorem add32_comm (x y : Word) : add32 x y = add32 y x := BitVec.add_comm x y

theorem add32_assoc (x y z : Word) : add32 (add32 x y) z = add32 x (add32 y z) := BitVec.add_assoc x y z

/-- Settles O1: add32 is the addition of 32-bit words, so the laws of `BitVec` addition carry over. -/
theorem add32IsAdditionModulo : Obligations.Add32IsAdditionModulo := fun x y z =>
  ⟨add32_toNat x y, add32_comm x y, add32_assoc x y z⟩

/-! ### rotl32 (R12) -/

/-- The shift form of R12 is the library's rotation. -/
theorem rotl32_eq_rotateLeft (x : Word) (n : Nat) : rotl32 x n = x.rotateLeft n :=
  BitVec.rotateLeft_def.symm

theorem rotl32_getLsbD (x : Word) (n i : Nat) (hi : i < 32) :
    (rotl32 x n).getLsbD i = x.getLsbD ((i + 32 - n % 32) % 32) := by
  rw [rotl32_eq_rotateLeft, BitVec.getLsbD_rotateLeft]
  by_cases hwrap : i < n % 32
  · have hbit : (i + 32 - n % 32) % 32 = 32 - n % 32 + i := by omega
    simp [hwrap, hbit]
  · have hbit : (i + 32 - n % 32) % 32 = i - n % 32 := by omega
    simp [hwrap, hbit, hi]

theorem rotl32_eq_self (x : Word) (n : Nat) (hn : n % 32 = 0) : rotl32 x n = x := by
  have hout : x >>> 32 = 0#32 := BitVec.ushiftRight_eq_zero (Nat.le_refl 32)
  simp [rotl32, hn, hout]

theorem rotl32_toNat (x : Word) (n : Nat) :
    (rotl32 x n).toNat = (x.toNat * 2 ^ (n % 32) % 2 ^ 32) ||| (x.toNat / 2 ^ (32 - n % 32)) := by
  rw [rotl32_eq_rotateLeft, BitVec.toNat_rotateLeft, Nat.shiftLeft_eq, Nat.shiftRight_eq_div_pow]

/-- Settles O2: rotl32 is the library's rotation, whose bits and shift form are R12's. -/
theorem rotl32RotatesEveryBit : Obligations.Rotl32RotatesEveryBit := fun x n =>
  ⟨rotl32_getLsbD x n, rotl32_eq_self x n, fun _ => rotl32_toNat x n⟩

/-! ### be32 and byteBe (R15) -/

/-- A concatenation with a byte as a number. -/
theorem append_byte_toNat {n : Nat} (x : BitVec n) (b : Byte) : (x ++ b).toNat = x.toNat * 256 + b.toNat := by
  rw [BitVec.toNat_append, ← Nat.shiftLeft_add_eq_or_of_lt b.isLt, Nat.shiftLeft_eq]

theorem be32_toNat (b0 b1 b2 b3 : Byte) :
    (be32 b0 b1 b2 b3).toNat = b0.toNat * 2 ^ 24 + b1.toNat * 2 ^ 16 + b2.toNat * 2 ^ 8 + b3.toNat := by
  unfold be32
  rw [append_byte_toNat, append_byte_toNat, append_byte_toNat]
  omega

theorem byteBe_toNat {width : Nat} (v : BitVec width) (count m : Nat) :
    (byteBe v count m).toNat = v.toNat / 2 ^ (8 * (count - 1 - m)) % 256 := by
  rw [byteBe, BitVec.extractLsb'_toNat, Nat.shiftRight_eq_div_pow]

/-- The four bytes of a word, first the most significant, are the word (R15). -/
@[simp] theorem be32_byteBe (w : Word) : be32 (byteBe w 4 0) (byteBe w 4 1) (byteBe w 4 2) (byteBe w 4 3) = w := by
  apply BitVec.eq_of_toNat_eq
  have hw : w.toNat < 2 ^ 32 := w.isLt
  rw [be32_toNat]
  simp only [byteBe_toNat]
  omega

/-- Settles O3: be32 and byteBe as numbers, where the digits of a word in base 256 give it back. -/
theorem be32AssemblesAndByteBeSlices : Obligations.Be32AssemblesAndByteBeSlices :=
  ⟨be32_toNat, fun count m v _ => byteBe_toNat v count m, be32_byteBe⟩

end Sys2Proof.Machine

/-! The decoder and the encoder (spec/30_encoding.md): a selector decodes exactly to the well-formed instructions whose
encoding it is, up to a T that the row ignores. -/

namespace Sys2Proof

/-! ### Well-formed indices (R80) -/

@[simp] theorem Instr.wellFormed_wexp (t : BitVec 7) :
    (Instr.wexp t).wellFormed = true ↔ 16 ≤ t.toNat ∧ t.toNat ≤ 79 := by simp [Instr.wellFormed]

@[simp] theorem Instr.wellFormed_rnd0 (t : BitVec 7) : (Instr.rnd0 t).wellFormed = true ↔ t.toNat ≤ 19 := by
  simp [Instr.wellFormed]

@[simp] theorem Instr.wellFormed_rnd1 (t : BitVec 7) :
    (Instr.rnd1 t).wellFormed = true ↔ 20 ≤ t.toNat ∧ t.toNat ≤ 39 := by simp [Instr.wellFormed]

@[simp] theorem Instr.wellFormed_rnd2 (t : BitVec 7) :
    (Instr.rnd2 t).wellFormed = true ↔ 40 ≤ t.toNat ∧ t.toNat ≤ 59 := by simp [Instr.wellFormed]

@[simp] theorem Instr.wellFormed_rnd3 (t : BitVec 7) :
    (Instr.rnd3 t).wellFormed = true ↔ 60 ≤ t.toNat ∧ t.toNat ≤ 79 := by simp [Instr.wellFormed]

/-! ### Phases and table words -/

/-- The phase in which an instruction is performed (R31); START is given while the sequencer is stopped (R125). -/
def Instr.phase : Instr → Phase
  | .start => .wait
  | .padlen => .padlen
  | .padcalc => .padcalc
  | .hinit => .hinit
  | .split => .split
  | .wload => .wload
  | .wexp _ => .wexp
  | .ldwv => .ldwv
  | .rnd0 _ | .rnd1 _ | .rnd2 _ | .rnd3 _ => .round
  | .hupd => .hupd
  | .next => .next
  | .ser => .ser

@[simp] theorem Phase.ofCode_code (ph : Phase) : Phase.ofCode ph.code = some ph := by
  cases ph <;> rfl

theorem Phase.eq_code_of_ofCode {p : BitVec 4} {ph : Phase} (h : Phase.ofCode p = some ph) : p = ph.code := by
  revert p
  cases ph <;> decide

theorem Phase.code_le (ph : Phase) : ph.code.toNat ≤ 11 := by
  cases ph <;> decide

theorem Phase.code_injective {ph ph' : Phase} (h : ph.code = ph'.code) : ph = ph' :=
  Option.some.inj (by rw [← Phase.ofCode_code, h, Phase.ofCode_code])

theorem Instr.phase_of_encode {i : Instr} {p : BitVec 4} {t : BitVec 7} (h : encode i = .u p t) : p = i.phase.code := by
  cases i <;> cases h <;> rfl

/-- The table's packing loses nothing: a word unpacks to the encoding it was made from (R79). -/
theorem unpack_word (e : Encoded) : unpack e.nbits e.word = some e := by
  cases e with
  | h b =>
    have hb : b.toNat < 2 := b.isLt
    simp [unpack, Encoded.nbits, Encoded.word, hb]
  | u p t =>
    have hp : p.toNat < 16 := p.isLt
    have ht : t.toNat < 128 := t.isLt
    have hword : p.toNat * 128 + t.toNat < 2048 := by omega
    have hphase : BitVec.ofNat 4 ((p.toNat * 128 + t.toNat) / 128) = p := by
      rw [show (p.toNat * 128 + t.toNat) / 128 = p.toNat by omega, BitVec.ofNat_toNat, BitVec.setWidth_eq]
    have hindex : BitVec.ofNat 7 (p.toNat * 128 + t.toNat) = t := by
      apply BitVec.eq_of_toNat_eq
      rw [BitVec.toNat_ofNat]
      omega
    simp [unpack, Encoded.nbits, Encoded.word, hword, hphase, hindex]

theorem decodeTableWord_of_decode {e : Encoded} {i : Instr} (h : decode e = .ok i) :
    decodeTableWord e.nbits e.word = some i := by
  simp [decodeTableWord, decodeWord, unpack_word, h]

/-! ### What a selector decodes to -/

theorem encode_eq_round_iff {t : BitVec 7} {i : Instr} :
    encode i = .u (Phase.code .round) t ↔ i = .rnd0 t ∨ i = .rnd1 t ∨ i = .rnd2 t ∨ i = .rnd3 t := by
  cases i <;> simp [encode, Phase.code]

/-- R80: in PH_ROUND the ranges of T are the ranges in which the four round operations are well formed. -/
theorem decodeRound_eq_ok_iff {t : BitVec 7} {i : Instr} :
    decodeRound t = .ok i ↔ i.wellFormed = true ∧ encode i = .u (Phase.code .round) t := by
  rw [encode_eq_round_iff]
  constructor
  · intro h
    unfold decodeRound at h
    split_ifs at h <;> cases h <;> simp <;> omega
  · rintro ⟨hwf, rfl | rfl | rfl | rfl⟩ <;>
      simp only [Instr.wellFormed_rnd0, Instr.wellFormed_rnd1, Instr.wellFormed_rnd2, Instr.wellFormed_rnd3] at hwf <;>
      unfold decodeRound
    · rw [if_pos hwf]
    · rw [if_neg (by omega), if_pos hwf.2]
    · rw [if_neg (by omega), if_neg (by omega), if_pos hwf.2]
    · rw [if_neg (by omega), if_neg (by omega), if_neg (by omega), if_pos hwf.2]

/-- The decoder of R31 and R80 read backwards: (PHASE, T) selects the well-formed instruction that it encodes, and in a
phase whose row ignores T every T up to 79 selects it. -/
theorem decodeSelector_eq_ok_iff {p : BitVec 4} {t : BitVec 7} {i : Instr} :
    decodeSelector p t = .ok i ↔ i.wellFormed = true ∧ t.toNat ≤ 79 ∧
      (encode i = .u p t ∨ (encode i = .u p 0 ∧ p ≠ Phase.code .wexp ∧ p ≠ Phase.code .round)) := by
  constructor
  · intro h
    unfold decodeSelector at h
    split at h
    case h_1 => cases h
    case h_2 ph hph =>
      obtain rfl := Phase.eq_code_of_ofCode hph
      by_cases hout : 80 ≤ t.toNat
      · rw [if_pos hout] at h
        cases h
      · rw [if_neg hout] at h
        have ht : t.toNat ≤ 79 := by omega
        cases ph
        case wait => cases h
        case wexp =>
          dsimp only at h
          split at h
          case isTrue hlo => cases h; simp [encode, Phase.code, hlo, ht]
          case isFalse => cases h
        case round =>
          obtain ⟨hwf, henc⟩ := decodeRound_eq_ok_iff.mp h
          exact ⟨hwf, ht, .inl henc⟩
        all_goals cases h; exact ⟨rfl, ht, .inr ⟨rfl, by decide, by decide⟩⟩
  · rintro ⟨hwf, ht, henc⟩
    have ht : ¬ 80 ≤ t.toNat := by omega
    have hp : p = i.phase.code := by
      rcases henc with henc | ⟨henc, -, -⟩ <;> exact Instr.phase_of_encode henc
    subst hp
    simp only [decodeSelector, Phase.ofCode_code, if_neg ht]
    cases i
    case start => rcases henc with henc | ⟨henc, -, -⟩ <;> cases henc
    case wexp u =>
      obtain rfl : u = t := by simpa [encode, Instr.phase, Phase.code] using henc
      have hlo : 16 ≤ u.toNat := ((Instr.wellFormed_wexp u).mp hwf).1
      simp [Instr.phase, hlo]
    case rnd0 | rnd1 | rnd2 | rnd3 =>
      rcases henc with henc | ⟨-, -, hround⟩
      · exact decodeRound_eq_ok_iff.mpr ⟨hwf, henc⟩
      · exact absurd rfl hround
    all_goals rfl

/-- An encoding's index is at most 79 (R32). -/
theorem Instr.index_le_of_encode {i : Instr} {p : BitVec 4} {t : BitVec 7} (hwf : i.wellFormed = true)
    (h : encode i = .u p t) : t.toNat ≤ 79 := by
  cases i <;> cases h <;> simp at hwf ⊢ <;> omega

theorem decode_encode {i : Instr} (hwf : i.wellFormed = true) : decode (encode i) = .ok i := by
  cases henc : encode i with
  | h b => cases i <;> cases henc; rfl
  | u p t => exact decodeSelector_eq_ok_iff.mpr ⟨hwf, Instr.index_le_of_encode hwf henc, .inl henc⟩

/-- Settles O5: an encoding is a selector of its instruction, and its table word unpacks to it. -/
theorem decodeOfEncodeIsIdentity : Obligations.DecodeOfEncodeIsIdentity := fun _ hwf =>
  ⟨decode_encode hwf, decodeTableWord_of_decode (decode_encode hwf)⟩

/-- Settles O6: the decoder read backwards. -/
theorem decodedSelectorIsEncoding : Obligations.DecodedSelectorIsEncoding := fun _ _ _ h =>
  decodeSelector_eq_ok_iff.mp h

/-- Settles O4: the decoder evaluated on each word. -/
theorem tableWordsDecode : Obligations.TableWordsDecode := by
  unfold Obligations.TableWordsDecode
  decide

end Sys2Proof

/-! What an instruction's meaning can answer, each register's writers (spec/10_state.md section 1), and what the host
reads right after reset and when STATUS is DONE. -/

namespace Sys2Proof.Machine

/-! ### What `exec` answers -/

/-- The four round operations: function, constant and the range of the index (R112 to R115). -/
inductive RoundOf (t : BitVec 7) : Instr → (Word → Word → Word → Word) → Word → Prop
  | rnd0 (ht : t.toNat ≤ 19) : RoundOf t (.rnd0 t) fChoose K0
  | rnd1 (ht : 20 ≤ t.toNat ∧ t.toNat ≤ 39) : RoundOf t (.rnd1 t) fParity K1
  | rnd2 (ht : 40 ≤ t.toNat ∧ t.toNat ≤ 59) : RoundOf t (.rnd2 t) fMajority K2
  | rnd3 (ht : 60 ≤ t.toNat ∧ t.toNat ≤ 79) : RoundOf t (.rnd3 t) fParity K3

theorem RoundOf.lt {t : BitVec 7} {i : Instr} {f : Word → Word → Word → Word} {k : Word} (hr : RoundOf t i f k) :
    t.toNat < 80 := by
  cases hr <;> omega

/-- The next states an instruction's meaning answers, guards included (`exec_eq_next_iff`). -/
inductive Answers (s : State) : Instr → State → Prop
  | startIgnored (hb : s.status = .busy) : Answers s .start s
  | startAccepted (hb : s.status ≠ .busy) : Answers s .start (beginRun s)
  | padlenIllegal (hl : s.len.extractLsb' 61 3 ≠ 0) : Answers s .padlen (raiseInvalidLength s)
  | padlenLegal (hl : s.len.extractLsb' 61 3 = 0) : Answers s .padlen ({ s with ml := s.len <<< 3 }.goto .padcalc)
  | padcalc : Answers s .padcalc
      ({ s with plen := BitVec.ofNat 64 (s.len.toNat + 1 + zpad s.len + 8) }.goto .hinit)
  | hinit : Answers s .hinit ({ s with h := IV, n := 0 }.goto .split)
  | split : Answers s .split ({ s with blk := nextBlock s, draws := s.draws + 1 }.goto .wload)
  | wload : Answers s .wload ({ s with w := loadWords s.blk s.w }.gotoAt .wexp 16)
  | wexp (t : BitVec 7) (ht : 16 ≤ t.toNat ∧ t.toNat ≤ 79) : Answers s (.wexp t)
      ({ s with w := s.w.set t.toNat (expandWord s.w t.toNat (by omega)) (by omega) }.loopNext t .wexp .ldwv)
  | ldwv : Answers s .ldwv
      ({ s with a := s.h[0], b := s.h[1], c := s.h[2], d := s.h[3], e := s.h[4] }.gotoAt .round 0)
  | round {i : Instr} {f : Word → Word → Word → Word} {k : Word} {t : BitVec 7} (hr : RoundOf t i f k) :
      Answers s i (roundStep f k t hr.lt s)
  | hupd : Answers s .hupd ({ s with
      h := #v[add32 s.h[0] s.a, add32 s.h[1] s.b, add32 s.h[2] s.c, add32 s.h[3] s.d, add32 s.h[4] s.e] }.goto .next)
  | nextBlock (hn : s.n.toNat + 1 < s.nblk.toNat) : Answers s .next ({ s with n := s.n + 1 }.goto .split)
  | lastBlock (hn : ¬ s.n.toNat + 1 < s.nblk.toNat) : Answers s .next (s.goto .ser)
  | ser : Answers s .ser (endRun { s with digest := serialize s.h })

theorem answers_of_exec {i : Instr} {s s' : State} (h : exec i s = .next s') : Answers s i s' := by
  cases i
  case start =>
    rcases exec_start_cases s with ⟨hb, he⟩ | ⟨hb, he⟩ <;> cases he.symm.trans h
    · exact .startIgnored hb
    · exact .startAccepted hb
  case padlen =>
    rcases exec_padlen_cases s with ⟨hl, he⟩ | ⟨hl, he⟩ <;> cases he.symm.trans h
    · exact .padlenIllegal hl
    · exact .padlenLegal hl
  case next =>
    rcases exec_next_cases s with ⟨hn, he⟩ | ⟨hn, he⟩ <;> cases he.symm.trans h
    · exact .nextBlock hn
    · exact .lastBlock hn
  case wexp t =>
    simp only [exec, execWexp] at h
    split at h <;> cases h
    exact .wexp t ‹_›
  case rnd0 t | rnd1 t | rnd2 t | rnd3 t =>
    simp only [exec, execRnd0, execRnd1, execRnd2, execRnd3] at h
    split at h <;> cases h
    exact .round (by constructor; assumption)
  all_goals cases h; constructor

theorem RoundOf.exec_eq {i : Instr} {f : Word → Word → Word → Word} {k : Word} {t : BitVec 7} (hr : RoundOf t i f k)
    (s : State) : exec i s = .next (roundStep f k t hr.lt s) := by
  cases hr <;> exact dif_pos ‹_›

theorem exec_of_answers {i : Instr} {s s' : State} (h : Answers s i s') : exec i s = .next s' := by
  cases h
  case startIgnored hb => exact if_pos hb
  case startAccepted hb => exact if_neg hb
  case padlenIllegal hl => exact if_pos hl
  case padlenLegal hl => exact if_neg (not_not.mpr hl)
  case wexp t ht => exact dif_pos ht
  case round hr => exact hr.exec_eq s
  case nextBlock hn => exact if_pos hn
  case lastBlock hn => exact if_neg hn
  all_goals rfl

theorem exec_eq_next_iff {i : Instr} {s s' : State} : exec i s = .next s' ↔ Answers s i s' :=
  ⟨answers_of_exec, exec_of_answers⟩

/-- Settles O46: the fields in which each answer differs from the state before are those of its row. -/
theorem registersHaveTheirWriters : Obligations.RegistersHaveTheirWriters := by
  intro i s s' h
  cases exec_eq_next_iff.mp h
  case round hr => cases hr <;> simp
  all_goals simp

/-! ### What the host reads -/

/-- Settles O10: the reset state evaluated. -/
theorem powerOnStateIsIdle : Obligations.PowerOnStateIsIdle := ⟨rfl, rfl, rfl⟩

theorem digestValid_iff (s : State) : s.digestValid = true ↔ s.status = .done := by
  simp [State.digestValid]

theorem readDigest_of_done {s : State} (hd : s.status = .done) (read : Nat) : readDigest read s = s.digest :=
  if_pos ((digestValid_iff s).mpr hd)

/-- Settles O41: with a valid digest every read is the register, and HEX is the view of that read. -/
theorem digestReadableWhenDone : Obligations.DigestReadableWhenDone := fun _ read hd =>
  ⟨readDigest_of_done hd read, congrArg hexView (readDigest_of_done hd read), rfl⟩

end Sys2Proof.Machine

/-! The padder's lengths (spec/40_padder.md section 2): what PADLEN checks and scales, and PLEN in closed form. -/

namespace Sys2Proof.Machine

theorem length_legal_iff (len : Length) : len.extractLsb' 61 3 = 0 ↔ len.toNat < 2 ^ 61 := by
  have hlen : len.toNat < 2 ^ 64 := len.isLt
  rw [← BitVec.toNat_inj, BitVec.extractLsb'_toNat, Nat.shiftRight_eq_div_pow,
    BitVec.ofNat_eq_ofNat, BitVec.toNat_zero]
  omega

theorem bitLength_toNat (len : Length) (hlen : len.toNat < 2 ^ 61) : (len <<< 3).toNat = 8 * len.toNat := by
  rw [BitVec.toNat_shiftLeft, Nat.shiftLeft_eq]
  omega

/-- NBLK is PLEN / 64 (R27). -/
theorem nblk_toNat (s : State) : s.nblk.toNat = s.plen.toNat / 64 := by
  have hplen : s.plen.toNat < 2 ^ 64 := s.plen.isLt
  rw [State.nblk, BitVec.extractLsb'_toNat, Nat.shiftRight_eq_div_pow]
  omega

/-- R93: the zero fill of R91 rounds LEN + 9 up to a multiple of 64. -/
theorem paddedLength_eq_add_zpad (len : Length) : len.toNat + 1 + zpad len + 8 = paddedLength len.toNat := by
  unfold zpad paddedLength
  dsimp only
  split <;> omega

/-- For a legal length PLEN does not overflow. -/
theorem plen_toNat (len : Length) (hlen : len.toNat < 2 ^ 61) :
    (BitVec.ofNat 64 (len.toNat + 1 + zpad len + 8)).toNat = paddedLength len.toNat := by
  rw [paddedLength_eq_add_zpad, BitVec.toNat_ofNat, paddedLength]
  omega

/-- Settles O20: all of it is arithmetic on the closed form of PLEN and NBLK = PLEN / 64. -/
theorem paddedLengthClosedForm : Obligations.PaddedLengthClosedForm := by
  intro s hlen
  refine ⟨_, rfl, ?_⟩
  have hzpad := paddedLength_eq_add_zpad s.len
  simp only [nblk_toNat, State.goto_plen, plen_toNat s.len hlen, true_and]
  unfold paddedLength at hzpad ⊢
  refine ⟨?_, ?_, ?_, ?_, ?_, ?_, ?_, ?_, ?_, ?_, ?_, fun k hk => ?_⟩ <;> omega

end Sys2Proof.Machine

/-! The invariant of the sequencer position (R133): it holds in every stopped state, and every step keeps it. -/

namespace Sys2Proof.Machine

/-! ### Stopped states -/

/-- With the sequencer stopped the invariant asks only for memory and T. -/
theorem State.Inv.of_stopped {s : State} (hm : Memory.wf s.msg) (ht : s.t.toNat ≤ 79) (hb : s.status ≠ .busy)
    (hp : s.phase = Phase.code .wait) : s.Inv where
  memory := hm
  phase := by simp [hp, Phase.code]
  index := ht
  busy := iff_of_false hb (not_not.mpr hp)
  expanding h := by simp [hp, Phase.code] at h
  length h := by simp [State.pastPadlen, hp, Phase.code] at h
  bits h := by simp [State.pastPadlen, hp, Phase.code] at h
  padded h := by simp [State.pastPadcalc, hp, Phase.code] at h
  block h := by simp [State.inBlockLoop, hp, Phase.code] at h

/-- Settles O48: right after reset the sequencer is stopped. -/
theorem resetSatisfiesInvariant : Obligations.ResetSatisfiesInvariant :=
  .of_stopped State.reset_memory_wf (by decide) (by decide) rfl

theorem takeReset_index_le (s : State) : (takeReset s).t.toNat ≤ 79 := by
  have hfree : (Config.freeResetStepIndex s.draws).val < 80 := (Config.freeResetStepIndex s.draws).isLt
  rw [takeReset_t, BitVec.toNat_ofNat]
  omega

/-! ### Running states -/

/-- In a state of the invariant the instruction a step takes is one of the phase the sequencer is in. -/
theorem State.Inv.phase_of_fetch {s : State} {i : Instr} (hi : s.Inv) (hf : s.fetch = .ok i) :
    s.phase = i.phase.code := by
  by_cases hb : s.status = .busy
  · rw [fetch_of_busy s hb] at hf
    obtain ⟨-, -, henc⟩ := decodeSelector_eq_ok_iff.mp hf
    rcases henc with henc | ⟨henc, -, -⟩ <;> exact Instr.phase_of_encode henc
  · rw [fetch_of_not_busy s hb] at hf
    split at hf <;> cases hf
    exact not_not.mp (mt hi.busy.mpr hb)

theorem State.Inv.status_of_running {s : State} (hi : s.Inv) (hp : 1 ≤ s.phase.toNat) : s.status = .busy :=
  hi.busy.mpr fun hw => by simp [hw, Phase.code] at hp

/-- Two states that agree on every field the invariant reads but PHASE and N. -/
structure State.SameRun (s r : State) : Prop where
  memory : r.msg = s.msg
  index : r.t = s.t
  status : r.status = s.status
  length : r.len = s.len
  bits : r.ml = s.ml
  padded : r.plen = s.plen

/-- After PADCALC the sequencer may go to any phase from PH_SPLIT on with the run's lengths as they are, at an index
that suits the phase and, inside the block loop, with N < NBLK. -/
theorem State.Inv.gotoAt {s r : State} {ph : Phase} {v : BitVec 7} (hi : s.Inv) (hs : s.pastPadcalc)
    (hr : s.SameRun r) (hph : 4 ≤ ph.code.toNat) (hv : v.toNat ≤ 79) (hexp : ph = .wexp → 16 ≤ v.toNat)
    (hblock : ph ≠ .ser → r.n.toNat < s.plen.toNat / 64) : (r.gotoAt ph v).Inv := by
  have hpast : s.pastPadlen := Nat.le_of_succ_le hs
  have hbusy : s.status = .busy := hi.status_of_running (Nat.le_of_succ_le hpast)
  have hwait : ph ≠ .wait := by rintro rfl; exact absurd hph (by decide)
  exact {
    memory := by simpa [hr.memory] using hi.memory
    phase := ph.code_le
    index := hv
    busy := by cases ph <;> simp [hr.status, hbusy, Phase.code] at hwait ⊢
    expanding := fun h => hexp (Phase.code_injective h)
    length := fun _ => by simpa [hr.length] using hi.length hpast
    bits := fun _ => by simpa [hr.bits, hr.length] using hi.bits hpast
    padded := fun _ => by simpa [hr.padded, hr.length] using hi.padded hs
    block := fun hloop => by
      have hser : ph ≠ .ser := by rintro rfl; exact absurd (show (Phase.code .ser).toNat ≤ 10 from hloop.2) (by decide)
      simpa [hr.padded] using hblock hser }

/-- Inside the block loop an operation that leaves N alone may go on to any phase from PH_SPLIT on. -/
theorem State.Inv.gotoAt_of_loop {s r : State} {ph : Phase} {v : BitVec 7} (hi : s.Inv) (hs : s.inBlockLoop)
    (hr : s.SameRun r) (hn : r.n = s.n) (hph : 4 ≤ ph.code.toNat) (hv : v.toNat ≤ 79)
    (hexp : ph = .wexp → 16 ≤ v.toNat) : (r.gotoAt ph v).Inv :=
  hi.gotoAt (Nat.le_of_succ_le hs.1) hr hph hv hexp fun _ => hn ▸ hi.block hs

/-- The end of a loop operation (R106, R116) inside the block loop. -/
theorem State.Inv.loopNext {s r : State} {again after : Phase} {t : BitVec 7} (hi : s.Inv) (hs : s.inBlockLoop)
    (hr : s.SameRun r) (hn : r.n = s.n) (hagain : 4 ≤ again.code.toNat) (hafter : 4 ≤ after.code.toNat)
    (ht : t.toNat ≤ 79) (hexp : again = .wexp → 16 ≤ t.toNat) (hleave : after ≠ .wexp) :
    (r.loopNext t again after).Inv := by
  unfold State.loopNext
  split
  · exact hi.gotoAt_of_loop hs hr hn hafter (hr.index ▸ hi.index) fun h => absurd h hleave
  · have hnext : (t + 1).toNat = t.toNat + 1 := BitVec.toNat_add_of_lt (by simp; omega)
    exact hi.gotoAt_of_loop hs hr hn hagain (by omega) fun h => by have := hexp h; omega

/-! ### The operations before the block loop, and NEXT -/

theorem State.Inv.beginRun {s : State} (hi : s.Inv) : (beginRun s).Inv where
  memory := hi.memory
  phase := by simp [Phase.code]
  index := hi.index
  busy := by simp [Phase.code]
  expanding h := by simp [Phase.code] at h
  length h := by simp [State.pastPadlen, Phase.code] at h
  bits h := by simp [State.pastPadlen, Phase.code] at h
  padded h := by simp [State.pastPadcalc, Phase.code] at h
  block h := by simp [State.inBlockLoop, Phase.code] at h

theorem State.Inv.padlenLegal {s : State} (hi : s.Inv) (hb : s.status = .busy) (hlen : s.len.toNat < 2 ^ 61) :
    ({ s with ml := s.len <<< 3 }.goto .padcalc).Inv where
  memory := hi.memory
  phase := by simp [Phase.code]
  index := hi.index
  busy := by simp [hb, Phase.code]
  expanding h := by simp [Phase.code] at h
  length _ := hlen
  bits _ := bitLength_toNat s.len hlen
  padded h := by simp [State.pastPadcalc, Phase.code] at h
  block h := by simp [State.inBlockLoop, Phase.code] at h

theorem State.Inv.padcalc {s : State} (hi : s.Inv) (hs : s.pastPadlen) :
    ({ s with plen := BitVec.ofNat 64 (s.len.toNat + 1 + zpad s.len + 8) }.goto .hinit).Inv where
  memory := hi.memory
  phase := by simp [Phase.code]
  index := hi.index
  busy := by simp [hi.status_of_running (Nat.le_of_succ_le hs), Phase.code]
  expanding h := by simp [Phase.code] at h
  length _ := hi.length hs
  bits _ := hi.bits hs
  padded _ := plen_toNat s.len (hi.length hs)
  block h := by simp [State.inBlockLoop, Phase.code] at h

theorem State.Inv.hinit {s : State} (hi : s.Inv) (hs : s.pastPadcalc) :
    ({ s with h := IV, n := 0 }.goto .split).Inv := by
  have hplen := hi.padded hs
  refine hi.gotoAt hs ⟨rfl, rfl, rfl, rfl, rfl, rfl⟩ (by decide) hi.index nofun fun _ => ?_
  show 0 < s.plen.toNat / 64
  omega

theorem State.Inv.nextBlock {s : State} (hi : s.Inv) (hs : s.pastPadcalc) (hn : s.n.toNat + 1 < s.nblk.toNat) :
    ({ s with n := s.n + 1 }.goto .split).Inv := by
  have hlt : s.nblk.toNat < 2 ^ 58 := s.nblk.isLt
  have hnext : (s.n + 1).toNat = s.n.toNat + 1 := BitVec.toNat_add_of_lt (by simp; omega)
  refine hi.gotoAt hs ⟨rfl, rfl, rfl, rfl, rfl, rfl⟩ (by decide) hi.index nofun fun _ => ?_
  rw [nblk_toNat] at hn
  exact hnext ▸ hn

/-! ### Every step -/

/-- An instruction performed in its own phase keeps the invariant. -/
theorem State.Inv.of_answers {s s' : State} {i : Instr} (hi : s.Inv) (hp : s.phase = i.phase.code)
    (ha : Answers s i s') : s'.Inv := by
  have hloop (h : 4 ≤ i.phase.code.toNat ∧ i.phase.code.toNat ≤ 10) : s.inBlockLoop := by
    rwa [State.inBlockLoop, hp]
  cases ha with
  | startIgnored => exact hi
  | startAccepted => exact hi.beginRun
  | padlenIllegal => exact .of_stopped hi.memory hi.index (by simp) rfl
  | padlenLegal hl =>
    exact hi.padlenLegal (hi.status_of_running (by rw [hp]; decide)) ((length_legal_iff s.len).mp hl)
  | padcalc => exact hi.padcalc (by rw [State.pastPadlen, hp]; decide)
  | hinit => exact hi.hinit (by rw [State.pastPadcalc, hp]; decide)
  | split | hupd | lastBlock =>
    exact hi.gotoAt_of_loop (hloop (by decide)) ⟨rfl, rfl, rfl, rfl, rfl, rfl⟩ rfl (by decide) hi.index nofun
  | wload | ldwv =>
    exact hi.gotoAt_of_loop (hloop (by decide)) ⟨rfl, rfl, rfl, rfl, rfl, rfl⟩ rfl (by decide) (by decide) (by decide)
  | wexp t ht =>
    exact hi.loopNext (hloop (by simp [Instr.phase, Phase.code])) ⟨rfl, rfl, rfl, rfl, rfl, rfl⟩ rfl (by decide)
      (by decide) ht.2 (fun _ => ht.1) (by decide)
  | round hr =>
    have hround : i.phase = .round := by cases hr <;> rfl
    exact hi.loopNext (hloop (by rw [hround]; decide)) ⟨rfl, rfl, rfl, rfl, rfl, rfl⟩ rfl (by decide) (by decide)
      (Nat.le_of_lt_succ hr.lt) nofun (by decide)
  | nextBlock hn => exact hi.nextBlock (Nat.le_of_succ_le (hloop (by decide)).1) hn
  | ser => exact .of_stopped (by simpa using hi.memory) (by simpa using hi.index) (by simp) rfl

/-- Settles O49: a step resets and stops, performs an instruction in its own phase, or changes nothing. -/
theorem stepKeepsInvariant : Obligations.StepKeepsInvariant := by
  intro s s' hi h
  rcases step_cases h with ⟨-, rfl⟩ | ⟨-, i, hf, he⟩ | ⟨-, -, rfl⟩
  · exact .of_stopped hi.memory (takeReset_index_le s) (by simp) rfl
  · exact hi.of_answers (hi.phase_of_fetch hf) (exec_eq_next_iff.mp he)
  · exact hi

end Sys2Proof.Machine

/-! Message memory (spec/20_memory.md): a canonical memory is what it reads as, SPLIT reads its own block and no more,
and no step writes what is the host's. -/

namespace Sys2Proof.Machine

/-! ### The canonical form (log 6) -/

theorem Memory.read_of_mem {m : Memory} {c : Host.Cell} (hm : List.Pairwise (fun c d => c.1 < d.1) m) (hc : c ∈ m) :
    Memory.read m c.1 = c.2 := by
  induction m with
  | nil => cases hc
  | cons d rest ih =>
    obtain ⟨habove, hrest⟩ := List.pairwise_cons.mp hm
    rcases List.mem_cons.mp hc with rfl | hc
    · exact if_pos rfl
    · have hne : d.1 ≠ c.1 := Nat.ne_of_lt (habove c hc)
      exact (if_neg hne).trans (ih hrest hc)

theorem Memory.mem_of_read {m : Memory} {addr : Nat} (hv : Memory.read m addr ≠ Memory.unlisted) :
    (addr, Memory.read m addr) ∈ m := by
  induction m with
  | nil => exact absurd rfl hv
  | cons d rest ih =>
    obtain ⟨k, x⟩ := d
    by_cases hk : k = addr
    · simp [Memory.read, hk]
    · simp only [Memory.read, if_neg hk] at hv ⊢
      exact List.mem_cons_of_mem _ (ih hv)

/-- The entries of a canonical memory are the addresses at which it does not read as unlisted. -/
theorem Memory.mem_iff_read {m : Memory} (hm : Memory.wf m) (c : Host.Cell) :
    c ∈ m ↔ Memory.read m c.1 = c.2 ∧ c.2 ≠ Memory.unlisted := by
  constructor
  · exact fun hc => ⟨Memory.read_of_mem hm.1 hc, (hm.2 c hc).2⟩
  · rintro ⟨hread, hv⟩
    have hmem : (c.1, Memory.read m c.1) ∈ m := Memory.mem_of_read (hread ▸ hv)
    rwa [hread] at hmem

/-- Settles O45: memories that read alike have the same entries, and rising addresses leave them one order. -/
theorem canonicalMemoryIsDeterminedByReads : Obligations.CanonicalMemoryIsDeterminedByReads := by
  intro m m' hm hm' hread
  have : Std.Irrefl fun c d : Host.Cell => c.1 < d.1 := ⟨fun c => Nat.lt_irrefl c.1⟩
  have : Std.Antisymm fun c d : Host.Cell => c.1 < d.1 := ⟨fun _ _ h h' => absurd h' (Nat.lt_asymm h)⟩
  exact hm.1.eq_of_mem_iff hm'.1 fun c => by rw [Memory.mem_iff_read hm, Memory.mem_iff_read hm', hread]

/-! ### What SPLIT reads (R97, R100) -/

/-- PM(j) looks at one address of memory at most, `j` itself, and only below LEN and MSG_CAP. -/
theorem padByte_of_read_eq (s : State) (mem : Memory) (j : Nat)
    (hread : j < s.len.toNat → j < s.msgCap.toNat → Memory.read mem j = Memory.read s.msg j) :
    padByte { s with msg := mem } j = padByte s j :=
  have hmem (hj : j < s.len.toNat) : memRead { s with msg := mem } j = memRead s j :=
    ite_congr rfl (hread hj) fun _ => rfl
  ite_congr rfl (fun _ => rfl) fun _ => ite_congr rfl hmem fun _ => rfl

theorem nextBlock_of_read_eq (s : State) (mem : Memory)
    (hread : ∀ addr, 64 * s.n.toNat ≤ addr → addr ≤ 64 * s.n.toNat + 63 → addr < s.len.toNat → addr < s.msgCap.toNat →
      Memory.read mem addr = Memory.read s.msg addr) :
    nextBlock { s with msg := mem } = nextBlock s := by
  refine Vector.ext fun k hk => ?_
  rw [nextBlock_getElem, nextBlock_getElem]
  exact padByte_of_read_eq s mem _ (hread (64 * s.n.toNat + k) (by omega) (by omega))

/-- Settles O24: the block loaded is all that SPLIT takes from memory. -/
theorem splitReadsOnlyItsBlock : Obligations.SplitReadsOnlyItsBlock := by
  intro s s' mem hread h
  have hblk := nextBlock_of_read_eq s mem hread
  cases h
  rw [← hblk]
  rfl

/-! ### What no step writes (R52) -/

theorem Answers.host_unchanged {i : Instr} {s s' : State} (ha : Answers s i s') :
    s'.msg = s.msg ∧ s'.pins = s.pins ∧ s'.msgCap = s.msgCap := by
  cases ha <;> simp

/-- Settles O44: neither a reset nor an instruction writes them, and otherwise the state stays. -/
theorem stepLeavesMessageMemory : Obligations.StepLeavesMessageMemory := by
  intro s s' h
  rcases step_cases h with ⟨-, rfl⟩ | ⟨-, i, -, he⟩ | ⟨-, -, rfl⟩
  · simp
  · exact (answers_of_exec he).host_unchanged
  · exact ⟨rfl, rfl, rfl⟩

end Sys2Proof.Machine

/-! The unreachable selectors of R82 (spec/30_encoding.md): the decoder rejects them, and of the others only the stopped
sequencer's. -/

namespace Sys2Proof

/-- The three classes of pairs (PHASE, T) that R82 calls unreachable. -/
def Unreachable (p : BitVec 4) (t : BitVec 7) : Prop :=
  12 ≤ p.toNat ∨ 80 ≤ t.toNat ∨ (p = Phase.code .wexp ∧ t.toNat < 16)

theorem Phase.ofCode_eq_none_iff {p : BitVec 4} : Phase.ofCode p = none ↔ 12 ≤ p.toNat := by
  revert p
  decide

theorem decodeRound_of_index_le {t : BitVec 7} (ht : t.toNat ≤ 79) : ∃ i, decodeRound t = .ok i := by
  unfold decodeRound
  split_ifs <;> exact ⟨_, rfl⟩

theorem decodeSelector_of_unreachable {p : BitVec 4} {t : BitVec 7} (h : Unreachable p t) :
    decodeSelector p t = .error .reservedPhase ∨ decodeSelector p t = .error .unreachableIndex := by
  cases hp : Phase.ofCode p with
  | none => exact .inl (by simp [decodeSelector, hp])
  | some ph =>
    refine .inr ?_
    obtain rfl := Phase.eq_code_of_ofCode hp
    have hph : ph.code.toNat ≤ 11 := ph.code_le
    rcases h with hreserved | hout | ⟨hwexp, hlow⟩
    · omega
    · simp [decodeSelector, hout]
    · obtain rfl := Phase.code_injective hwexp
      have hin : ¬ 80 ≤ t.toNat := by omega
      have hlow : ¬ 16 ≤ t.toNat := by omega
      simp [decodeSelector, hin, hlow]

theorem decodeSelector_of_reachable {p : BitVec 4} {t : BitVec 7} (h : ¬ Unreachable p t) :
    decodeSelector p t = .error .sequencerStopped ∨ ∃ i, decodeSelector p t = .ok i := by
  obtain ⟨hnamed, hindex, hexpanding⟩ : ¬ 12 ≤ p.toNat ∧ ¬ 80 ≤ t.toNat ∧ ¬ (p = Phase.code .wexp ∧ t.toNat < 16) := by
    simpa only [Unreachable, not_or] using h
  obtain ⟨ph, hph⟩ := Option.ne_none_iff_exists'.mp (mt Phase.ofCode_eq_none_iff.mp hnamed)
  obtain rfl := Phase.eq_code_of_ofCode hph
  simp only [decodeSelector, Phase.ofCode_code, if_neg hindex]
  cases ph
  case wait => exact .inl rfl
  case wexp =>
    have hlow : 16 ≤ t.toNat := Nat.le_of_not_lt fun hlt => hexpanding ⟨rfl, hlt⟩
    exact .inr ⟨_, if_pos hlow⟩
  case round => exact .inr (decodeRound_of_index_le (by omega))
  all_goals exact .inr ⟨_, rfl⟩

end Sys2Proof

/-! What the selectors do in a step (spec/30_encoding.md): the rounds by the range of T, indices that select nothing, the
instruction a step performs, and the unreachable selectors, which fault and which no step leads to. -/

namespace Sys2Proof.Machine

/-! ### Indices that select and indices that do not (R80) -/

theorem RoundOf.encode_eq {t : BitVec 7} {i : Instr} {f : Word → Word → Word → Word} {k : Word}
    (hr : RoundOf t i f k) : encode i = .u 0x8 t := by
  cases hr <;> rfl

theorem RoundOf.wellFormed {t : BitVec 7} {i : Instr} {f : Word → Word → Word → Word} {k : Word}
    (hr : RoundOf t i f k) : i.wellFormed = true := by
  cases hr <;> simpa

theorem RoundOf.selected {t : BitVec 7} {i : Instr} {f : Word → Word → Word → Word} {k : Word}
    (hr : RoundOf t i f k) (s : State) :
    decode (.u 0x8 t) = .ok i ∧ exec i s = .next (roundStep f k t hr.lt s) :=
  ⟨hr.encode_eq ▸ decode_encode hr.wellFormed, hr.exec_eq s⟩

/-- Settles O8: each range of T is the range of one round operation, whose function and constant are those written. -/
theorem roundSelectedByRange : Obligations.RoundSelectedByRange := fun s _ ht =>
  ⟨fun hhi => (RoundOf.rnd0 hhi).selected s, fun hlo hhi => (RoundOf.rnd1 ⟨hlo, hhi⟩).selected s,
    fun hlo hhi => (RoundOf.rnd2 ⟨hlo, hhi⟩).selected s, fun hlo => (RoundOf.rnd3 ⟨hlo, ht⟩).selected s⟩

/-- Settles O9: an ill-formed index fails the range check of its operation. -/
theorem illFormedIndexFaults : Obligations.IllFormedIndexFaults := fun t _ =>
  ⟨fun h => dif_neg (mt (Instr.wellFormed_wexp t).mpr (Bool.eq_false_iff.mp h)),
   fun h => dif_neg (mt (Instr.wellFormed_rnd0 t).mpr (Bool.eq_false_iff.mp h)),
   fun h => dif_neg (mt (Instr.wellFormed_rnd1 t).mpr (Bool.eq_false_iff.mp h)),
   fun h => dif_neg (mt (Instr.wellFormed_rnd2 t).mpr (Bool.eq_false_iff.mp h)),
   fun h => dif_neg (mt (Instr.wellFormed_rnd3 t).mpr (Bool.eq_false_iff.mp h))⟩

/-- A well-formed instruction completes in every state. -/
theorem exec_of_wellFormed {i : Instr} (hwf : i.wellFormed = true) (s : State) : ∃ s', exec i s = .next s' := by
  cases i
  case start => rcases exec_start_cases s with ⟨-, he⟩ | ⟨-, he⟩ <;> exact ⟨_, he⟩
  case padlen => rcases exec_padlen_cases s with ⟨-, he⟩ | ⟨-, he⟩ <;> exact ⟨_, he⟩
  case next => rcases exec_next_cases s with ⟨-, he⟩ | ⟨-, he⟩ <;> exact ⟨_, he⟩
  case wexp t => exact ⟨_, exec_of_answers (.wexp t ((Instr.wellFormed_wexp t).mp hwf))⟩
  case rnd0 t => exact ⟨_, (RoundOf.rnd0 ((Instr.wellFormed_rnd0 t).mp hwf)).exec_eq s⟩
  case rnd1 t => exact ⟨_, (RoundOf.rnd1 ((Instr.wellFormed_rnd1 t).mp hwf)).exec_eq s⟩
  case rnd2 t => exact ⟨_, (RoundOf.rnd2 ((Instr.wellFormed_rnd2 t).mp hwf)).exec_eq s⟩
  case rnd3 t => exact ⟨_, (RoundOf.rnd3 ((Instr.wellFormed_rnd3 t).mp hwf)).exec_eq s⟩
  all_goals exact ⟨_, rfl⟩

/-! ### What a step performs (R78, R79, R125) -/

/-- Settles O12: the selector fetched is (PHASE, T) while BUSY and the port START otherwise. -/
theorem stepRunsDecodedInstruction : Obligations.StepRunsDecodedInstruction := by
  refine fun s hr => ⟨fun i hb hd => ?_, fun hb hstart => ?_⟩
  · exact step_of_fetch s i hr ((fetch_of_busy s hb).trans hd)
  · exact step_of_fetch s .start hr ((fetch_of_not_busy s hb).trans (if_pos hstart))

/-- Settles O13: with START low the command field holds no command. -/
theorem idleMachineHoldsItsState : Obligations.IdleMachineHoldsItsState := by
  intro s hr hb hstart
  have hf : s.fetch = .error .noCommand := by rw [fetch_of_not_busy s hb, hstart]; rfl
  exact step_of_no_fetch s .noCommand hr hf

/-! ### The unreachable selectors (R82) -/

theorem step_of_unreachable {s : State} (hr : s.pins.rst = false) (hb : s.status = .busy)
    (h : Unreachable s.phase s.t) : step s = .fault (.unreachableSelector s.phase s.t) := by
  rcases decodeSelector_of_unreachable h with hd | hd <;>
    exact step_of_no_fetch s _ hr ((fetch_of_busy s hb).trans hd)

/-- While BUSY a step from any other selector completes: what it decodes to is well formed. -/
theorem step_of_reachable {s : State} (hr : s.pins.rst = false) (hb : s.status = .busy)
    (h : ¬ Unreachable s.phase s.t) : ∃ s', step s = .next s' := by
  rcases decodeSelector_of_reachable h with hd | ⟨i, hd⟩
  · exact ⟨s, step_of_no_fetch s _ hr ((fetch_of_busy s hb).trans hd)⟩
  · rw [step_of_fetch s i hr ((fetch_of_busy s hb).trans hd)]
    obtain ⟨hwf, -, -⟩ := decodeSelector_eq_ok_iff.mp hd
    exact exec_of_wellFormed hwf s

theorem State.Inv.reachable {s : State} (hi : s.Inv) : ¬ Unreachable s.phase s.t := by
  have hphase : s.phase.toNat ≤ 11 := hi.phase
  have hindex : s.t.toNat ≤ 79 := hi.index
  rintro (hreserved | hout | ⟨hwexp, hlow⟩)
  · omega
  · omega
  · have := hi.expanding hwexp
    omega

/-- Settles O7: while BUSY an unreachable selector faults and any other completes, and the invariant, which a step
keeps, excludes the unreachable ones. -/
theorem unreachableSelectorsFault : Obligations.UnreachableSelectorsFault := by
  refine ⟨fun s hr hb => ⟨step_of_unreachable hr hb, fun hfault => ?_⟩, fun s s' hi h => ?_⟩
  · by_contra hreach
    obtain ⟨s', hnext⟩ := step_of_reachable hr hb hreach
    cases hfault.symm.trans hnext
  · exact (stepKeepsInvariant s s' hi h).reachable

end Sys2Proof.Machine

/-! The padder (spec/40_padder.md): what PADLEN and PADCALC answer, the padded message byte by byte, and that a message
can be recovered from it. -/

namespace Sys2Proof.Machine

/-! ### PADLEN and PADCALC (R90, R91) -/

/-- In a phase whose row ignores T, every T up to 79 selects the phase's operation (R31, R79). -/
theorem decode_of_ignored_index {p : BitVec 4} {t : BitVec 7} {i : Instr} (hwf : i.wellFormed = true)
    (henc : encode i = .u p 0) (hwexp : p ≠ Phase.code .wexp) (hround : p ≠ Phase.code .round) (ht : t.toNat ≤ 79) :
    decode (.u p t) = .ok i :=
  decodeSelector_eq_ok_iff.mpr ⟨hwf, ht, .inr ⟨henc, hwexp, hround⟩⟩

theorem exec_padlen_of_legal {s : State} (hlen : s.len.toNat < 2 ^ 61) :
    exec .padlen s = .next ({ s with ml := s.len <<< 3 }.goto .padcalc) :=
  exec_of_answers (.padlenLegal ((length_legal_iff s.len).mpr hlen))

theorem exec_padlen_of_illegal {s : State} (hlen : 2 ^ 61 ≤ s.len.toNat) :
    exec .padlen s = .next (raiseInvalidLength s) :=
  exec_of_answers (.padlenIllegal (mt (length_legal_iff s.len).mp (Nat.not_lt.mpr hlen)))

/-- Settles O16: LEN[63:61] is 0 exactly when LEN < 2^61, and then the shift by 3 loses no bit. -/
theorem padlenChecksAndScalesLength : Obligations.PadlenChecksAndScalesLength :=
  ⟨fun _ ht => decode_of_ignored_index rfl rfl (by decide) (by decide) ht,
   fun s hlen => ⟨_, exec_padlen_of_legal hlen, bitLength_toNat s.len hlen, rfl, rfl⟩,
   fun _ hlen => exec_padlen_of_illegal hlen⟩

/-- Settles O19: both branches of the bit formula are the closed form of PLEN. -/
theorem padcalcFollowsBitFormula : Obligations.PadcalcFollowsBitFormula := by
  refine ⟨fun _ ht => decode_of_ignored_index rfl rfl (by decide) (by decide) ht, fun s hlen => ?_⟩
  refine ⟨_, rfl, fun hshort => ?_, fun hlong => ?_, rfl, rfl⟩ <;>
    rw [State.goto_plen, plen_toNat s.len hlen, paddedLength] <;> omega

/-! ### The length field (R72) -/

@[simp] theorem lengthField_length (bits : Nat) : (lengthField bits).length = 8 := by
  simp [lengthField]

theorem lengthField_getElem? {m : Nat} (bits : Nat) (hm : m < 8) :
    (lengthField bits)[m]? = some (BitVec.ofNat 8 (bits / 256 ^ (7 - m))) := by
  simp [lengthField, hm]

/-- The length field is the big-endian form of the bit length as a 64-bit value (R15). -/
theorem lengthField_getElem?_eq_byteBe {m : Nat} (v : Length) (hm : m < 8) :
    (lengthField v.toNat)[m]? = some (byteBe v 8 m) := by
  have hbyte : BitVec.ofNat 8 (v.toNat / 256 ^ (7 - m)) = byteBe v 8 m := by
    apply BitVec.eq_of_toNat_eq
    rw [byteBe_toNat, BitVec.toNat_ofNat, Nat.pow_mul]
  rw [lengthField_getElem? _ hm, hbyte]

/-- Eight digits in base 256 determine a bit length below 2^64. -/
theorem lengthField_injective {a b : Nat} (ha : a < 2 ^ 64) (hb : b < 2 ^ 64) (h : lengthField a = lengthField b) :
    a = b := by
  have hdigit (m : Nat) (hm : m < 8) : a / 256 ^ (7 - m) % 256 = b / 256 ^ (7 - m) % 256 := by
    have hbyte := congrArg (·[m]?) h
    simp only [lengthField_getElem? _ hm, Option.some.injEq] at hbyte
    simpa using congrArg BitVec.toNat hbyte
  have h0 := hdigit 0 (by decide)
  have h1 := hdigit 1 (by decide)
  have h2 := hdigit 2 (by decide)
  have h3 := hdigit 3 (by decide)
  have h4 := hdigit 4 (by decide)
  have h5 := hdigit 5 (by decide)
  have h6 := hdigit 6 (by decide)
  have h7 := hdigit 7 (by decide)
  omega

/-! ### The padded message byte by byte (R71, R96) -/

/-- What `pad` puts before the length field: message, marker, zero fill. -/
def padFront (m : List Byte) : List Byte :=
  m ++ ([0x80] ++ List.replicate (paddedLength m.length - m.length - 9) 0x00)

theorem pad_eq_padFront_append (m : List Byte) : pad m = padFront m ++ lengthField (8 * m.length) := by
  rw [pad, padFront, List.append_assoc m]

theorem add_nine_le_paddedLength (len : Nat) : len + 9 ≤ paddedLength len := by
  unfold paddedLength
  omega

theorem padFront_length (m : List Byte) : (padFront m).length = paddedLength m.length - 8 := by
  have := add_nine_le_paddedLength m.length
  rw [padFront, List.length_append, List.length_append, List.length_singleton, List.length_replicate]
  omega

theorem pad_length (m : List Byte) : (pad m).length = paddedLength m.length := by
  have := add_nine_le_paddedLength m.length
  rw [pad_eq_padFront_append, List.length_append, padFront_length, lengthField_length]
  omega

theorem pad_getElem?_message {m : List Byte} {j : Nat} (hj : j < m.length) : (pad m)[j]? = m[j]? := by
  rw [pad_eq_padFront_append, padFront, List.append_assoc, List.getElem?_append_left hj]

theorem pad_getElem?_marker (m : List Byte) : (pad m)[m.length]? = some 0x80 := by
  simp [pad_eq_padFront_append, padFront]

theorem pad_getElem?_fill {m : List Byte} {j : Nat} (hj : m.length < j) (hp : j + 8 < paddedLength m.length) :
    (pad m)[j]? = some 0x00 := by
  have hfront : j < (padFront m).length := by rw [padFront_length]; omega
  rw [pad_eq_padFront_append, List.getElem?_append_left hfront, padFront, List.getElem?_append_right hj.le,
    List.getElem?_append_right (by rw [List.length_singleton]; omega),
    List.getElem?_replicate_of_lt (by rw [List.length_singleton]; omega)]

theorem pad_getElem?_length {m : List Byte} {j : Nat} (hf : paddedLength m.length ≤ j + 8) :
    (pad m)[j]? = (lengthField (8 * m.length))[j + 8 - paddedLength m.length]? := by
  have := add_nine_le_paddedLength m.length
  have hindex : j - (padFront m).length = j + 8 - paddedLength m.length := by rw [padFront_length]; omega
  rw [pad_eq_padFront_append, List.getElem?_append_right (by rw [padFront_length]; omega), hindex]

@[simp] theorem message_length (mem : Memory) (len : Nat) : (message mem len).length = len := by
  simp [message]

theorem message_getElem? (mem : Memory) {len j : Nat} (hj : j < len) :
    (message mem len)[j]? = some (Memory.read mem j) := by
  simp [message, hj]

/-- Settles O21: the four ranges of R92 are the four parts of `pad`. -/
theorem padByteIsByteOfPaddedMessage : Obligations.PadByteIsByteOfPaddedMessage := by
  intro s j hcap hml hplen hj
  have hlen := message_length s.msg s.len.toNat
  have hpadded : s.plen.toNat = paddedLength (message s.msg s.len.toNat).length := by rw [hplen, hlen, paddedLength]
  rcases Nat.lt_trichotomy j s.len.toNat with hmsg | rfl | hafter
  · have hread : memRead s j = Memory.read s.msg j := if_pos (Nat.lt_of_lt_of_le hmsg hcap)
    rw [pad_getElem?_message (hlen.symm ▸ hmsg), message_getElem? s.msg hmsg, padByte_message s j hj hmsg, hread]
  · have hmarker := pad_getElem?_marker (message s.msg s.len.toNat)
    rw [hlen] at hmarker
    rw [hmarker, padByte_marker s hj]
  · rcases Nat.lt_or_ge (j + 8) s.plen.toNat with hfill | hfield
    · rw [pad_getElem?_fill (hlen.symm ▸ hafter) (hpadded ▸ hfill), padByte_fill s j hafter hfill]
    · rw [pad_getElem?_length (hpadded ▸ hfield), ← hpadded, hlen, ← hml,
        lengthField_getElem?_eq_byteBe s.ml (by omega), padByte_length s j hafter hj hfield]

/-! ### Recovering the message (R96) -/

/-- The last eight bytes of the padded form give the length of the message. -/
theorem length_eq_of_pad_eq {m m' : List Byte} (hm : m.length < 2 ^ 61) (hm' : m'.length < 2 ^ 61)
    (h : pad m = pad m') : m.length = m'.length := by
  rw [pad_eq_padFront_append, pad_eq_padFront_append] at h
  obtain ⟨-, hfield⟩ := List.append_inj' h (by simp)
  have := lengthField_injective (by omega) (by omega) hfield
  omega

/-- Settles O22: the length field gives the length, and the message is that many bytes from the front. -/
theorem paddingIsInjective : Obligations.PaddingIsInjective := by
  intro m m' hm hm' h
  have hlength := length_eq_of_pad_eq hm hm' h
  simp only [pad, List.append_assoc] at h
  exact List.append_inj_left h hlength

end Sys2Proof.Machine

/-! The block splitter (spec/41_block_splitter.md): the bytes SPLIT loads, the length field in the last block, and the
blocks as a partition of the padded message. -/

namespace Sys2Proof.Machine

/-! ### The block SPLIT loads (R92, R100) -/

/-- A byte of a length, big-endian, as a digit in base 256 (R15). -/
theorem byteBe_length_toNat (v : Length) (m : Nat) : (byteBe v 8 m).toNat = v.toNat / 256 ^ (7 - m) % 256 := by
  rw [byteBe_toNat, Nat.pow_mul]

/-- Settles O23: block N lies below PLEN, so byte k of it is in exactly one of the four ranges of R92. -/
theorem splitLoadsBlock : Obligations.SplitLoadsBlock := by
  refine ⟨fun _ ht => decode_of_ignored_index rfl rfl (by decide) (by decide) ht, fun s => ?_⟩
  refine ⟨_, rfl, rfl, rfl, fun hlen hn k hk => ?_⟩
  have hj : 64 * s.n.toNat + k < s.plen.toNat := by omega
  simp only [State.goto_blk, nextBlock_getElem]
  refine ⟨fun hmsg hcap => ?_, fun hmarker => ?_, fun hafter hfill => ?_, fun hfield => ?_⟩
  · rw [padByte_message s _ hj hmsg, memRead_provided s _ hcap]
  · rw [hmarker, padByte_marker s (hmarker ▸ hj)]
  · exact padByte_fill s _ hafter hfill
  · rw [padByte_length s _ (by omega) hj hfield, byteBe_length_toNat]

/-! ### The length field in the last block (R72) -/

/-- The last eight bytes of the last block are those of ML, big-endian. -/
theorem nextBlock_lengthField {s : State} {m : Nat} (hm : m < 8) (hlen : s.len.toNat + 9 ≤ s.plen.toNat)
    (hlast : s.plen.toNat = 64 * (s.n.toNat + 1)) : (nextBlock s)[56 + m] = byteBe s.ml 8 m := by
  have hindex : 64 * s.n.toNat + (56 + m) + 8 - s.plen.toNat = m := by omega
  rw [nextBlock_getElem, padByte_length s _ (by omega) (by omega) (by omega), hindex]

/-- The eight bytes of a length, read as two words, are the length (R15). -/
theorem be32_byteBe_length (v : Length) :
    (be32 (byteBe v 8 0) (byteBe v 8 1) (byteBe v 8 2) (byteBe v 8 3)).toNat * 2 ^ 32 +
      (be32 (byteBe v 8 4) (byteBe v 8 5) (byteBe v 8 6) (byteBe v 8 7)).toNat = v.toNat := by
  have hv : v.toNat < 2 ^ 64 := v.isLt
  simp only [be32_toNat, byteBe_toNat]
  omega

/-- Settles O29: WLOAD makes W[14] and W[15] of the eight bytes that SPLIT put at the end of the block. -/
theorem lengthFieldIsLastTwoWords : Obligations.LengthFieldIsLastTwoWords := by
  intro s hlen hlast
  have hbyte {m : Nat} (hm : m < 8) : (nextBlock s)[56 + m] = byteBe s.ml 8 m := nextBlock_lengthField hm hlen hlast
  refine ⟨_, _, rfl, rfl, ?_, fun m hm => ?_⟩
  · rw [← be32_byteBe_length s.ml]
    simp only [State.gotoAt_w, State.goto_blk, loadWords_low, ← hbyte, Nat.reduceLT, Nat.reduceMul, Nat.reduceAdd]
  · rw [State.goto_blk, hbyte hm, byteBe_length_toNat]

/-! ### The blocks of a message (R101) -/

/-- The first `n` blocks in order are the first 64n bytes. -/
theorem flatten_map_blockOf_range (padded : List Byte) (n : Nat) :
    ((List.range n).map (blockOf padded)).flatten = padded.take (64 * n) := by
  induction n with
  | zero => rfl
  | succ n ih =>
    rw [List.range_succ, List.map_append, List.flatten_append, ih, Nat.mul_succ, List.take_add, List.map_singleton,
      List.flatten_singleton, blockOf]

/-- A block that the padded message fills has 64 bytes. -/
theorem blockOf_length {padded : List Byte} {n : Nat} (hn : 64 * (n + 1) ≤ padded.length) :
    (blockOf padded n).length = 64 := by
  rw [blockOf, List.length_take, List.length_drop]
  omega

theorem blockOf_getElem? (padded : List Byte) (n : Nat) {k : Nat} (hk : k < 64) :
    (blockOf padded n)[k]? = padded[64 * n + k]? := by
  rw [blockOf, List.getElem?_take_of_lt hk, List.getElem?_drop]

/-- The padded length is a whole number of blocks (R94). -/
theorem blocks_length (m : List Byte) : 64 * (blocks m).length = (pad m).length := by
  rw [blocks, List.length_map, List.length_range, pad_length, paddedLength, Nat.mul_div_cancel_left _ (by decide)]

/-- Block `n` of a message is block `n` of its padded form, and the padded form reaches to its end. -/
theorem blocks_getElem? {m : List Byte} {n : Nat} {b : List Byte} (hb : (blocks m)[n]? = some b) :
    b = blockOf (pad m) n ∧ 64 * (n + 1) ≤ (pad m).length := by
  obtain ⟨hn, rfl⟩ := List.getElem?_eq_some_iff.mp hb
  have := blocks_length m
  exact ⟨by simp [blocks], by omega⟩

/-- Settles O25: the blocks are consecutive pieces of the padded message, whose length is a multiple of 64. -/
theorem blocksPartitionPaddedMessage : Obligations.BlocksPartitionPaddedMessage := by
  intro m
  refine ⟨?_, fun b hb => ?_, blocks_length m, fun n b hb k hk => ?_⟩
  · have hall : 64 * (paddedLength m.length / 64) = (pad m).length := by simpa [blocks] using blocks_length m
    rw [blocks, flatten_map_blockOf_range, hall, List.take_length]
  · obtain ⟨n, hn⟩ := List.mem_iff_getElem?.mp hb
    obtain ⟨rfl, hfull⟩ := blocks_getElem? hn
    exact blockOf_length hfull
  · obtain ⟨rfl, -⟩ := blocks_getElem? hb
    exact blockOf_getElem? _ n hk

end Sys2Proof.Machine

/-! The word-schedule expander (spec/42_word_schedule.md): what WLOAD and WEXP answer, and the schedule that the run of
both leaves in W. -/

namespace Sys2Proof.Machine

/-! ### WLOAD and WEXP (R105, R106) -/

/-- Settles O26: a word below 16 is four bytes of the block, the others are as they were. -/
theorem wloadExtractsWords : Obligations.WloadExtractsWords := by
  refine ⟨fun _ ht => decode_of_ignored_index rfl rfl (by decide) (by decide) ht, fun s => ?_⟩
  refine ⟨_, rfl, fun i hi => ?_, fun i hi hlo => ?_, rfl, rfl, rfl⟩
  · rw [State.gotoAt_w, loadWords_low s.blk s.w i hi, be32_toNat]
  · exact loadWords_high s.blk s.w i hlo hi

/-- The successor of a loop's index below 79 does not wrap (R32). -/
theorem index_add_one_toNat {t : BitVec 7} (ht : t.toNat < 79) : (t + 1).toNat = t.toNat + 1 := by
  bv_omega

theorem State.loopNext_of_last (s : State) {t : BitVec 7} (again after : Phase) (ht : t.toNat = 79) :
    s.loopNext t again after = s.goto after := if_pos ht

theorem State.loopNext_of_not_last (s : State) {t : BitVec 7} (again after : Phase) (ht : t.toNat < 79) :
    s.loopNext t again after = s.gotoAt again (t + 1) := if_neg ht.ne

/-- Bit b of a new word is bit b - 1 (mod 32) of each tap, summed modulo 2 (R106). -/
theorem expandWord_getLsbD (w : Vector Word 80) (t : Nat) (ht : t < 80) (b : Nat) (hb : b < 32) :
    (expandWord w t ht).getLsbD b =
      ((w[t - 3]).getLsbD ((b + 31) % 32) ^^ (w[t - 8]).getLsbD ((b + 31) % 32) ^^
        (w[t - 14]).getLsbD ((b + 31) % 32) ^^ (w[t - 16]).getLsbD ((b + 31) % 32)) := by
  rw [expandWord, rotl32_getLsbD _ 1 b hb, BitVec.getLsbD_xor, BitVec.getLsbD_xor, BitVec.getLsbD_xor]
  rfl

theorem decode_wexp {t : BitVec 7} (ht : 16 ≤ t.toNat ∧ t.toNat ≤ 79) : decode (.u 0x6 t) = .ok (.wexp t) :=
  decode_encode ((Instr.wellFormed_wexp t).mpr ht)

/-- Settles O27: WEXP sets one word of W, and the loop ends at index 79. -/
theorem wexpExpandsOneWord : Obligations.WexpExpandsOneWord := by
  intro s t hlo hhi
  refine ⟨decode_wexp ⟨hlo, hhi⟩, _, exec_of_answers (.wexp t ⟨hlo, hhi⟩), fun b hb => ?_, fun i hi hne => ?_,
    fun hlast => ?_, fun hmore => ?_, ?_⟩
  · simp only [State.loopNext_w, Vector.getElem_set_self]
    exact expandWord_getLsbD s.w t.toNat _ b hb
  · simp only [State.loopNext_w]
    exact Vector.getElem_set_ne _ hi hne.symm
  · rw [State.loopNext_of_last _ _ _ hlast]
    exact ⟨rfl, rfl⟩
  · rw [State.loopNext_of_not_last _ _ _ hmore]
    exact ⟨rfl, index_add_one_toNat hmore⟩
  · rcases Nat.lt_or_eq_of_le hhi with hmore | hlast
    · rw [State.loopNext_of_not_last _ _ _ hmore]
      rfl
    · rw [State.loopNext_of_last _ _ _ hlast]
      rfl

/-! ### The pure schedule as W holds it (R73, R106) -/

theorem toList_getD_of_lt {α : Type} {n j : Nat} (v : Vector α n) (d : α) (hj : j < n) :
    v.toList.getD j d = v[j] := by
  simp [List.getD_eq_getElem?_getD, hj]

/-- The words of a block are the first sixteen that WLOAD leaves in W. -/
theorem loadWords_take (blk : Vector Byte 64) (w : Vector Word 80) :
    (loadWords blk w).toList.take 16 = wordsOf blk.toList := by
  apply List.ext_getElem
  · simp [wordsOf]
  · intro i hi _
    have hi : i < 16 := by simpa using hi
    simp (disch := omega) only [wordsOf, List.getElem_map, List.getElem_range, List.getElem_take,
      Vector.getElem_toList, toList_getD_of_lt]
    exact loadWords_low blk w i hi

theorem take_getD_of_lt (w : Vector Word 80) {t j : Nat} (hj : j < t) (ht : t < 80) :
    (w.toList.take t).getD j 0 = w[j] := by
  rw [← toList_getD_of_lt w 0 (hj.trans ht), List.getD_eq_getElem?_getD, List.getElem?_take_of_lt hj,
    List.getD_eq_getElem?_getD]

/-- Setting word `t` adds it at the end of the words below `t`. -/
theorem set_toList_take_succ (w : Vector Word 80) {t : Nat} (ht : t < 80) (v : Word) :
    (w.set t v).toList.take (t + 1) = w.toList.take t ++ [v] := by
  rw [List.take_succ_eq_append_getElem (by simpa using ht)]
  simp [Vector.toList_set, List.take_set_of_le]

/-- One word of the recurrence: what WEXP sets is what `extendSchedule` puts at the end of the words below `t`. -/
theorem extendSchedule_take_succ (w : Vector Word 80) {t : Nat} (k : Nat) (hlo : 16 ≤ t) (ht : t < 80) :
    extendSchedule (k + 1) (w.toList.take t) =
      extendSchedule k ((w.set t (expandWord w t ht)).toList.take (t + 1)) := by
  have hlength : (w.toList.take t).length = t := by simp; omega
  rw [extendSchedule, hlength, set_toList_take_succ, expandWord]
  simp (disch := omega) only [take_getD_of_lt]

/-! ### The run of WLOAD and the 64 WEXP (R107) -/

theorem noReset_cons_iff {p : Pins} {ps : List Pins} : noReset (p :: ps) ↔ p.rst = false ∧ noReset ps :=
  List.forall_mem_cons

/-- While BUSY, a step with RST low performs the instruction that (PHASE, T) decodes to (R79). -/
theorem runWith_cons_of_decode {s s' : State} {p : Pins} {i : Instr} (ps : List Pins) (hr : p.rst = false)
    (hb : s.status = .busy) (hd : decode (.u s.phase s.t) = .ok i) (he : exec i { s with pins := p } = .next s') :
    runWith (p :: ps) s = runWith ps s' := by
  have hstep : step { s with pins := p } = .next s' :=
    ((stepRunsDecodedInstruction { s with pins := p } hr).1 i hb hd).trans he
  rw [runWith, hstep]

/-- A state inside the schedule of `s`: the four parts in which the expander's operations let it differ. -/
def State.scheduling (s : State) (ph : Phase) (t : BitVec 7) (w : Vector Word 80) (p : Pins) : State :=
  { s with w := w, phase := ph.code, t := t, pins := p }

section
variable {s : State} {w : Vector Word 80} {t : BitVec 7} {p q : Pins} (ps : List Pins)

theorem runWith_wload (hr : p.rst = false) (hb : s.status = .busy) (hp : s.phase = Phase.code .wload)
    (ht : s.t.toNat ≤ 79) :
    runWith (p :: ps) s = runWith ps (s.scheduling .wexp 16 (loadWords s.blk s.w) p) := by
  have hd : decode (.u s.phase s.t) = .ok .wload := by
    rw [hp]
    exact wloadExtractsWords.1 s.t ht
  exact runWith_cons_of_decode ps hr hb hd rfl

theorem runWith_wexp (hr : q.rst = false) (hb : s.status = .busy) (ht : 16 ≤ t.toNat ∧ t.toNat < 79) :
    runWith (q :: ps) (s.scheduling .wexp t w p) =
      runWith ps (s.scheduling .wexp (t + 1) (w.set t.toNat (expandWord w t.toNat (by omega)) (by omega)) q) := by
  have ht' : 16 ≤ t.toNat ∧ t.toNat ≤ 79 := ⟨ht.1, ht.2.le⟩
  have he := exec_of_answers (.wexp (s := s.scheduling .wexp t w q) t ht')
  rw [State.loopNext_of_not_last _ _ _ ht.2] at he
  exact runWith_cons_of_decode ps hr hb (decode_wexp ht') he

theorem runWith_wexp_last (hr : q.rst = false) (hb : s.status = .busy) :
    runWith (q :: ps) (s.scheduling .wexp 79 w p) =
      runWith ps (s.scheduling .ldwv 79 (w.set 79 (expandWord w 79 (by decide))) q) := by
  have ht : 16 ≤ (79 : BitVec 7).toNat ∧ (79 : BitVec 7).toNat ≤ 79 := by decide
  have he := exec_of_answers (.wexp (s := s.scheduling .wexp 79 w q) 79 ht)
  rw [State.loopNext_of_last _ _ _ rfl] at he
  exact runWith_cons_of_decode ps hr hb (decode_wexp ht) he

end

/-- The loop of WEXP from index `t` to 79 extends the words below `t` to the whole schedule. -/
theorem runWith_wexp_loop {s : State} (hb : s.status = .busy) {ps : List Pins} (hr : noReset ps) {t : BitVec 7}
    (hlo : 16 ≤ t.toNat) (hhi : t.toNat ≤ 79) (hps : t.toNat + ps.length = 80) (w : Vector Word 80) (p : Pins) :
    ∃ w' p', runWith ps (s.scheduling .wexp t w p) = .next (s.scheduling .ldwv 79 w' p') ∧
      w'.toList = extendSchedule ps.length (w.toList.take t.toNat) := by
  induction ps generalizing t w p with
  | nil =>
    rw [List.length_nil] at hps
    exfalso
    omega
  | cons q ps ih =>
    obtain ⟨hrq, hrps⟩ := noReset_cons_iff.mp hr
    rw [List.length_cons] at hps ⊢
    rw [extendSchedule_take_succ w ps.length hlo (by omega)]
    rcases Nat.lt_or_eq_of_le hhi with hmore | hlast
    · have hnext := index_add_one_toNat hmore
      rw [runWith_wexp ps hrq hb ⟨hlo, hmore⟩, ← hnext]
      exact ih hrps (by omega) (by omega) (by omega) _ q
    · obtain rfl : t = 79 := BitVec.eq_of_toNat_eq hlast
      obtain rfl : ps = [] := List.eq_nil_of_length_eq_zero (by omega)
      exact ⟨_, q, runWith_wexp_last [] hrq hb, (List.take_of_length_le (by simp)).symm⟩

/-- From PH_WLOAD, 65 operations leave the schedule of the block in W and the sequencer at LDWV with T = 79. -/
theorem runWith_schedule {s : State} (hb : s.status = .busy) (hp : s.phase = Phase.code .wload) (ht : s.t.toNat ≤ 79)
    {ps : List Pins} (hr : noReset ps) (hps : ps.length = 65) :
    ∃ w p, runWith ps s = .next (s.scheduling .ldwv 79 w p) ∧ w.toList = schedule s.blk.toList := by
  obtain ⟨p, ps, rfl⟩ := List.exists_cons_of_length_eq_add_one hps
  have hps : ps.length = 64 := Nat.succ.inj hps
  obtain ⟨hrp, hrps⟩ := noReset_cons_iff.mp hr
  rw [runWith_wload ps hrp hb hp ht, schedule, ← loadWords_take s.blk s.w, ← hps]
  exact runWith_wexp_loop hb hrps (by decide) (by decide) (by rw [hps]; rfl) _ p

/-- Settles O28: the first sixteen words of W are the block's, and the recurrence gives the rest. -/
theorem scheduleIsFunctionOfBlock : Obligations.ScheduleIsFunctionOfBlock := by
  intro s ps hb hp ht hr hps
  obtain ⟨w, p, hrun, hw⟩ := runWith_schedule hb hp ht hr hps
  exact ⟨_, hrun, hw, rfl, rfl⟩

end Sys2Proof.Machine

/-! The round-function pipeline (spec/43_round_function.md): what HINIT, LDWV, a round and HUPD answer, and the 147
operations of a block, which add `compress` of the block into H. -/

namespace Sys2Proof.Machine

/-! ### HINIT, LDWV and HUPD (R110, R111, R117) -/

/-- Settles O30: HINIT overwrites H with IV. -/
theorem hinitLoadsInitialState : Obligations.HinitLoadsInitialState :=
  ⟨fun _ ht => decode_of_ignored_index rfl rfl (by decide) (by decide) ht,
   fun _ => ⟨_, rfl, rfl, rfl, rfl, rfl, rfl, rfl, rfl, rfl⟩⟩

/-- Settles O31: each working variable is a copy of one hash register. -/
theorem ldwvCopiesHashState : Obligations.LdwvCopiesHashState :=
  ⟨fun _ ht => decode_of_ignored_index rfl rfl (by decide) (by decide) ht,
   fun _ => ⟨_, rfl, rfl, rfl, rfl, rfl, rfl, rfl, rfl, rfl⟩⟩

/-- Settles O36: the new hash registers are five `add32`. -/
theorem hupdAddsWorkingVariables : Obligations.HupdAddsWorkingVariables :=
  ⟨fun _ ht => decode_of_ignored_index rfl rfl (by decide) (by decide) ht,
   fun _ => ⟨_, rfl, add32_toNat _ _, add32_toNat _ _, add32_toNat _ _, add32_toNat _ _, add32_toNat _ _, rfl, rfl⟩⟩

/-! ### The round functions bit by bit (R112 to R115) -/

theorem fChoose_getLsbD (b c d : Word) {i : Nat} (hi : i < 32) :
    (fChoose b c d).getLsbD i = if b.getLsbD i then c.getLsbD i else d.getLsbD i := by
  simp only [fChoose, BitVec.getLsbD_or, BitVec.getLsbD_and, BitVec.getLsbD_not, hi, decide_true]
  cases b.getLsbD i <;> simp

theorem fParity_getLsbD (b c d : Word) (i : Nat) :
    (fParity b c d).getLsbD i =
      decide (((b.getLsbD i).toNat + (c.getLsbD i).toNat + (d.getLsbD i).toNat) % 2 = 1) := by
  rw [fParity, BitVec.getLsbD_xor, BitVec.getLsbD_xor]
  generalize b.getLsbD i = x, c.getLsbD i = y, d.getLsbD i = z
  revert x y z
  decide

theorem fMajority_getLsbD (b c d : Word) (i : Nat) :
    (fMajority b c d).getLsbD i =
      decide (2 ≤ (b.getLsbD i).toNat + (c.getLsbD i).toNat + (d.getLsbD i).toNat) := by
  simp only [fMajority, BitVec.getLsbD_or, BitVec.getLsbD_and]
  generalize b.getLsbD i = x, c.getLsbD i = y, d.getLsbD i = z
  revert x y z
  decide

/-! ### One round (R116) -/

section
variable (f : Word → Word → Word → Word) (k : Word) {t : BitVec 7} (ht : t.toNat < 80) (s : State)

/-- The five terms of a round are summed modulo 2^32: only the last carry out of bit 31 counts, and it is discarded. -/
theorem roundStep_a_toNat : (roundStep f k t ht s).a.toNat =
    ((rotl32 s.a 5).toNat + (f s.b s.c s.d).toNat + s.e.toNat + k.toNat + (s.w[t.toNat]).toNat) % 2 ^ 32 := by
  simp only [roundStep_a, add32_toNat, Nat.mod_add_mod]

theorem roundStep_frame : roundStep f k t ht s =
    { s with a := (roundStep f k t ht s).a, b := (roundStep f k t ht s).b, c := (roundStep f k t ht s).c,
             d := (roundStep f k t ht s).d, e := (roundStep f k t ht s).e, phase := (roundStep f k t ht s).phase,
             t := (roundStep f k t ht s).t } := by
  unfold roundStep
  rcases Nat.lt_or_eq_of_le (Nat.le_of_lt_succ ht) with hmore | hlast
  · rw [State.loopNext_of_not_last _ _ _ hmore]
    rfl
  · rw [State.loopNext_of_last _ _ _ hlast]
    rfl

end

section
variable {t : BitVec 7} {i : Instr} {f : Word → Word → Word → Word} {k : Word}

/-- What each round operation does, with its own function and constant; `P` is what is known of f's value. -/
theorem RoundOf.completes (hr : RoundOf t i f k) (s : State) {P : Word → Prop} (hP : P (f s.b s.c s.d)) :
    decode (.u 0x8 t) = .ok i ∧ ∃ (s' : State) (fv : Word), exec i s = .next s' ∧ P fv ∧
      s'.a.toNat =
        ((rotl32 s.a 5).toNat + fv.toNat + s.e.toNat + k.toNat + (s.w[t.toNat]'hr.lt).toNat) % 2 ^ 32 ∧
      s'.b = s.a ∧ s'.c = rotl32 s.b 30 ∧ s'.d = s.c ∧ s'.e = s.d ∧
      (t.toNat = 79 → s'.phase = 0x9 ∧ s'.t = s.t) ∧
      (t.toNat < 79 → s'.phase = 0x8 ∧ s'.t.toNat = t.toNat + 1) ∧
      s' = { s with a := s'.a, b := s'.b, c := s'.c, d := s'.d, e := s'.e, phase := s'.phase, t := s'.t } := by
  obtain ⟨hd, he⟩ := hr.selected s
  refine ⟨hd, _, f s.b s.c s.d, he, hP, roundStep_a_toNat f k hr.lt s, roundStep_b .., roundStep_c .., roundStep_d ..,
    roundStep_e .., fun hlast => ?_, fun hmore => ?_, roundStep_frame f k hr.lt s⟩
  · rw [roundStep_phase, roundStep_t, if_pos hlast, if_pos hlast]
    exact ⟨rfl, rfl⟩
  · rw [roundStep_phase, roundStep_t, if_neg hmore.ne, if_neg hmore.ne]
    exact ⟨rfl, index_add_one_toNat hmore⟩

/-- Before index 79 a round operation leads to the next round. -/
theorem RoundOf.completes_of_not_last (hr : RoundOf t i f k) (hmore : t.toNat < 79) (s : State) {P : Word → Prop}
    (hP : P (f s.b s.c s.d)) :
    decode (.u 0x8 t) = .ok i ∧ ∃ (s' : State) (fv : Word), exec i s = .next s' ∧ P fv ∧
      s'.a.toNat =
        ((rotl32 s.a 5).toNat + fv.toNat + s.e.toNat + k.toNat + (s.w[t.toNat]'hr.lt).toNat) % 2 ^ 32 ∧
      s'.b = s.a ∧ s'.c = rotl32 s.b 30 ∧ s'.d = s.c ∧ s'.e = s.d ∧ s'.phase = 0x8 ∧ s'.t.toNat = t.toNat + 1 ∧
      s' = { s with a := s'.a, b := s'.b, c := s'.c, d := s'.d, e := s'.e, phase := s'.phase, t := s'.t } := by
  obtain ⟨hd, s', fv, he, hfv, ha, hb, hc, hd', he', -, hnext, hframe⟩ := hr.completes s hP
  obtain ⟨hphase, hindex⟩ := hnext hmore
  exact ⟨hd, s', fv, he, hfv, ha, hb, hc, hd', he', hphase, hindex, hframe⟩

end

/-- Settles O32: RND0 is the round with `fChoose`, whose bits choose between C and D. -/
theorem rnd0UsesChoice : Obligations.Rnd0UsesChoice := fun s _ ht =>
  (RoundOf.rnd0 ht).completes_of_not_last (by omega) s fun _ => fChoose_getLsbD s.b s.c s.d

/-- Settles O33: RND1 is the round with `fParity`, whose bits are the sum of three modulo 2. -/
theorem rnd1UsesParity : Obligations.Rnd1UsesParity := fun s _ hlo hhi =>
  (RoundOf.rnd1 ⟨hlo, hhi⟩).completes_of_not_last (by omega) s fun i _ => fParity_getLsbD s.b s.c s.d i

/-- Settles O34: RND2 is the round with `fMajority`, whose bits are the majority of three. -/
theorem rnd2UsesMajority : Obligations.Rnd2UsesMajority := fun s _ hlo hhi =>
  (RoundOf.rnd2 ⟨hlo, hhi⟩).completes_of_not_last (by omega) s fun i _ => fMajority_getLsbD s.b s.c s.d i

/-- Settles O35: RND3 is the round with `fParity`, and its range holds the index at which the loop ends. -/
theorem rnd3UsesParityAndEndsRounds : Obligations.Rnd3UsesParityAndEndsRounds := fun s _ hlo hhi =>
  (RoundOf.rnd3 ⟨hlo, hhi⟩).completes s fun i _ => fParity_getLsbD s.b s.c s.d i

/-! ### The machine's round and the pure round (R116, R119) -/

section
variable {t : BitVec 7} {i : Instr} {f : Word → Word → Word → Word} {k : Word}

theorem RoundOf.exists_of_index_le (ht : t.toNat ≤ 79) : ∃ i f k, RoundOf t i f k := by
  rcases Nat.lt_or_ge t.toNat 20 with h20 | h20
  · exact ⟨_, _, _, .rnd0 (by omega)⟩
  rcases Nat.lt_or_ge t.toNat 40 with h40 | h40
  · exact ⟨_, _, _, .rnd1 (by omega)⟩
  rcases Nat.lt_or_ge t.toNat 60 with h60 | h60
  · exact ⟨_, _, _, .rnd2 (by omega)⟩
  · exact ⟨_, _, _, .rnd3 (by omega)⟩

theorem RoundOf.roundF_eq (hr : RoundOf t i f k) (b c d : Word) : roundF t.toNat b c d = f b c d := by
  cases hr <;> simp (disch := omega) only [roundF, if_pos, if_neg]

theorem RoundOf.roundK_eq (hr : RoundOf t i f k) : roundK t.toNat = k := by
  cases hr <;> simp (disch := omega) only [roundK, if_pos, if_neg]

end

/-- A state inside the rounds of `s`: the parts in which LDWV and the rounds let it differ, the working variables as one
vector. -/
def State.rounding (s : State) (ph : Phase) (t : BitVec 7) (v : Vector Word 5) (p : Pins) : State :=
  { s with a := v[0], b := v[1], c := v[2], d := v[3], e := v[4], phase := ph.code, t := t, pins := p }

theorem State.rounding_goto (s : State) (ph ph' : Phase) (t : BitVec 7) (v : Vector Word 5) (p : Pins) :
    (s.rounding ph t v p).goto ph' = s.rounding ph' t v p := rfl

theorem State.rounding_gotoAt (s : State) (ph ph' : Phase) (t t' : BitVec 7) (v : Vector Word 5) (p : Pins) :
    (s.rounding ph t v p).gotoAt ph' t' = s.rounding ph' t' v p := rfl

/-- H with a vector added into it word by word, as in the last line of `compress`. -/
def State.addIntoHash (s : State) (v : Vector Word 5) : State := { s with h := Vector.zipWith (· + ·) s.h v }

/-- The commuting square of a round: the machine's round is `roundOn` on the vector of working variables. -/
theorem roundStep_rounding {t : BitVec 7} {i : Instr} {f : Word → Word → Word → Word} {k : Word}
    (hr : RoundOf t i f k) (s : State) (v : Vector Word 5) (p : Pins) :
    roundStep f k t hr.lt (s.rounding .round t v p) =
      (s.rounding .round t (roundOn s.w.toList v t.toNat) p).loopNext t .round .hupd := by
  rw [roundOn, hr.roundF_eq, hr.roundK_eq, toList_getD_of_lt s.w 0 hr.lt]
  rfl

/-- HUPD's five separate additions add the vector of working variables. -/
theorem exec_hupd_rounding (s : State) (ph : Phase) (t : BitVec 7) (v : Vector Word 5) (p : Pins) :
    exec .hupd (s.rounding ph t v p) = .next ((s.addIntoHash v).rounding .next t v p) := by
  have hadd : #v[add32 s.h[0] v[0], add32 s.h[1] v[1], add32 s.h[2] v[2], add32 s.h[3] v[3], add32 s.h[4] v[4]] =
      Vector.zipWith (· + ·) s.h v := by
    ext i hi
    rw [Vector.getElem_zipWith]
    match i, hi with
    | 0, _ | 1, _ | 2, _ | 3, _ | 4, _ => rfl
  rw [State.addIntoHash, ← hadd]
  rfl

/-! ### The run of a block (R119) -/

theorem noReset_append_iff {ps qs : List Pins} : noReset (ps ++ qs) ↔ noReset ps ∧ noReset qs :=
  List.forall_mem_append

/-- A run is the run of its first part and then, from where that ended, of the rest. -/
theorem runWith_append {s s' : State} {ps : List Pins} (qs : List Pins) (h : runWith ps s = .next s') :
    runWith (ps ++ qs) s = runWith qs s' := by
  induction ps generalizing s with
  | nil => cases h; rfl
  | cons p ps ih =>
    rw [List.cons_append, runWith]
    rw [runWith] at h
    cases hstep : step { s with pins := p } with
    | next r => rw [hstep] at h; exact ih h
    | fault r => rw [hstep] at h; cases h
    | refused r => rw [hstep] at h; cases h

section
variable {s : State} {v : Vector Word 5} {t : BitVec 7} {p q : Pins} (ps : List Pins)

theorem runWith_ldwv (hr : p.rst = false) (hb : s.status = .busy) (hp : s.phase = Phase.code .ldwv)
    (ht : s.t.toNat ≤ 79) : runWith (p :: ps) s = runWith ps (s.rounding .round 0 s.h p) := by
  have hd : decode (.u s.phase s.t) = .ok .ldwv := by
    rw [hp]
    exact ldwvCopiesHashState.1 s.t ht
  exact runWith_cons_of_decode ps hr hb hd rfl

theorem runWith_round (hr : q.rst = false) (hb : s.status = .busy) (ht : t.toNat ≤ 79) :
    runWith (q :: ps) (s.rounding .round t v p) =
      runWith ps ((s.rounding .round t (roundOn s.w.toList v t.toNat) q).loopNext t .round .hupd) := by
  obtain ⟨i, f, k, hround⟩ := RoundOf.exists_of_index_le ht
  obtain ⟨hd, he⟩ := hround.selected (s.rounding .round t v q)
  rw [roundStep_rounding hround] at he
  exact runWith_cons_of_decode ps hr hb hd he

theorem runWith_hupd (hr : q.rst = false) (hb : s.status = .busy) (ht : t.toNat ≤ 79) :
    runWith (q :: ps) (s.rounding .hupd t v p) =
      runWith ps ((s.addIntoHash v).rounding .next t v q) :=
  runWith_cons_of_decode ps hr hb (hupdAddsWorkingVariables.1 t ht) (exec_hupd_rounding s .hupd t v q)

end

/-- The loop of the rounds from index `t` to 79, and HUPD after it: the operations left are one more than the rounds. -/
theorem runWith_rounds_loop {s : State} (hb : s.status = .busy) {ps : List Pins} (hr : noReset ps) {t : BitVec 7}
    (hhi : t.toNat ≤ 79) {n : Nat} (hps : ps.length = n + 1) (ht : t.toNat + n = 80) (v : Vector Word 5) (p : Pins) :
    ∃ v' p', runWith ps (s.rounding .round t v p) =
      .next ((s.addIntoHash ((List.range' t.toNat n).foldl (roundOn s.w.toList) v)).rounding .next 79 v' p') := by
  induction n generalizing ps t v p with
  | zero =>
    exfalso
    omega
  | succ n ih =>
    obtain ⟨q, ps, rfl⟩ := List.exists_cons_of_length_eq_add_one hps
    have hps : ps.length = n + 1 := Nat.succ.inj hps
    obtain ⟨hrq, hrps⟩ := noReset_cons_iff.mp hr
    rw [runWith_round ps hrq hb hhi, List.range'_succ, List.foldl_cons]
    rcases Nat.lt_or_eq_of_le hhi with hmore | hlast
    · rw [State.loopNext_of_not_last _ _ _ hmore, State.rounding_gotoAt, ← index_add_one_toNat hmore]
      exact ih hrps (by rw [index_add_one_toNat hmore]; omega) hps (by rw [index_add_one_toNat hmore]; omega) _ q
    · obtain rfl : t = 79 := BitVec.eq_of_toNat_eq hlast
      obtain rfl : n = 0 := by omega
      obtain ⟨r, rfl⟩ := List.length_eq_one_iff.mp hps
      rw [State.loopNext_of_last _ _ _ rfl, State.rounding_goto,
        runWith_hupd [] (hrps r (List.mem_singleton_self r)) hb hhi, runWith]
      exact ⟨_, r, rfl⟩

/-- From PH_LDWV, 82 operations add the eighty rounds of W into H and leave the sequencer at NEXT. -/
theorem runWith_rounds {s : State} (hb : s.status = .busy) (hp : s.phase = Phase.code .ldwv) (ht : s.t.toNat ≤ 79)
    {ps : List Pins} (hr : noReset ps) (hps : ps.length = 82) :
    ∃ v p, runWith ps s = .next ((s.addIntoHash (rounds s.w.toList s.h)).rounding .next 79 v p) := by
  obtain ⟨p, ps, rfl⟩ := List.exists_cons_of_length_eq_add_one hps
  obtain ⟨hrp, hrps⟩ := noReset_cons_iff.mp hr
  rw [runWith_ldwv ps hrp hb hp ht, rounds, List.range_eq_range']
  exact runWith_rounds_loop hb hrps (by decide) (Nat.succ.inj hps) rfl s.h p

/-- Settles O37: the expander's 65 operations leave the schedule of the block in W, and the 82 after them add its eighty
rounds into H. -/
theorem blockOperationsCompress : Obligations.BlockOperationsCompress := by
  intro s ps hb hp ht hr hps
  rw [← List.take_append_drop 65 ps] at hr ⊢
  obtain ⟨hrSchedule, hrRounds⟩ := noReset_append_iff.mp hr
  obtain ⟨w, p, hschedule, hw⟩ := runWith_schedule hb hp ht hrSchedule (by simp [hps])
  obtain ⟨v, q, hrounds⟩ :=
    runWith_rounds (s := s.scheduling .ldwv 79 w p) hb rfl (Nat.le_refl 79) hrRounds (by simp [hps])
  refine ⟨_, (runWith_append _ hschedule).trans hrounds, ?_, rfl, rfl⟩
  rw [compress, ← hw]
  rfl

end Sys2Proof.Machine

/-! The serializer and the output views (spec/44_serializer.md): what SER writes, and the characters of HEX. -/

namespace Sys2Proof.Machine

/-! ### SER (R120, R121) -/

/-- DIGEST[4i + m] is byte m of H[i] (R120). -/
theorem serialize_getElem_word (h : Vector Word 5) {i m : Nat} (hi : i < 5) (hm : m < 4) :
    (serialize h)[4 * i + m] = byteBe h[i] 4 m := by
  have hword : (4 * i + m) / 4 = i := by omega
  have hbyte : (4 * i + m) % 4 = m := by omega
  simp only [serialize_getElem, hword, hbyte]

/-- Settles O39: DIGEST is the serialized hash state, and `endRun` writes the rest. -/
theorem serWritesDigestAndEndsRun : Obligations.SerWritesDigestAndEndsRun := by
  refine ⟨fun _ ht => decode_of_ignored_index rfl rfl (by decide) (by decide) ht, fun s => ?_⟩
  refine ⟨_, rfl, fun i m hi hm => ?_, rfl, rfl, rfl⟩
  simp only [endRun_digest, serialize_getElem_word s.h hi hm, byteBe_toNat, Nat.pow_mul]

/-- Settles O40: the four bytes SER writes of a word are those `be32_byteBe` assembles. -/
theorem serializerInvertsWordExtraction : Obligations.SerializerInvertsWordExtraction := by
  refine fun s => ⟨_, rfl, fun i hi => ?_⟩
  have hfirst : (serialize s.h)[4 * i] = byteBe s.h[i] 4 0 := serialize_getElem_word s.h hi (m := 0) (by decide)
  rw [endRun_digest, hfirst, serialize_getElem_word s.h hi (m := 1) (by decide),
    serialize_getElem_word s.h hi (m := 2) (by decide), serialize_getElem_word s.h hi (m := 3) (by decide), be32_byteBe]

/-! ### Hexadecimal digits (R75) -/

theorem highNibble_toNat (b : Byte) : (b.extractLsb' 4 4).toNat = b.toNat / 16 := by
  have hb : b.toNat < 256 := b.isLt
  rw [BitVec.extractLsb'_toNat, Nat.shiftRight_eq_div_pow]
  omega

theorem lowNibble_toNat (b : Byte) : (b.extractLsb' 0 4).toNat = b.toNat % 16 := by
  rw [BitVec.extractLsb'_toNat, Nat.shiftRight_zero]

theorem byte_eq_of_nibbles_eq {b b' : Byte} (hhigh : b.extractLsb' 4 4 = b'.extractLsb' 4 4)
    (hlow : b.extractLsb' 0 4 = b'.extractLsb' 0 4) : b = b' := by
  rw [← BitVec.toNat_inj] at hhigh hlow ⊢
  rw [highNibble_toNat, highNibble_toNat] at hhigh
  rw [lowNibble_toNat, lowNibble_toNat] at hlow
  omega

theorem hexChar_toNat (v : BitVec 4) :
    (hexChar v).toNat = if v.toNat < 10 then 0x30 + v.toNat else 0x61 + (v.toNat - 10) := by
  revert v
  decide

theorem hexChar_range (v : BitVec 4) :
    (0x30 ≤ (hexChar v).toNat ∧ (hexChar v).toNat ≤ 0x39) ∨ (0x61 ≤ (hexChar v).toNat ∧ (hexChar v).toNat ≤ 0x66) := by
  have hv : v.toNat < 16 := v.isLt
  rw [hexChar_toNat]
  split <;> omega

theorem hexChar_injective {v v' : BitVec 4} (h : hexChar v = hexChar v') : v = v' := by
  rw [← BitVec.toNat_inj, hexChar_toNat, hexChar_toNat] at h
  apply BitVec.eq_of_toNat_eq
  split at h <;> split at h <;> omega

/-! ### HEX (R122) -/

theorem hexView_high (d : Vector Byte 20) {m : Nat} (hm : m < 20) :
    (hexView d)[2 * m] = hexChar (d[m].extractLsb' 4 4) := by
  simp [hexView]

theorem hexView_low (d : Vector Byte 20) {m : Nat} (hm : m < 20) :
    (hexView d)[2 * m + 1] = hexChar (d[m].extractLsb' 0 4) := by
  have hbyte : (2 * m + 1) / 2 = m := by omega
  simp [hexView, hbyte]

theorem hexView_getElem_eq_hexChar (d : Vector Byte 20) {i : Nat} (hi : i < 40) :
    ∃ v, (hexView d)[i] = hexChar v := by
  rcases Nat.even_or_odd' i with ⟨m, rfl | rfl⟩
  · exact ⟨_, hexView_high d (by omega)⟩
  · exact ⟨_, hexView_low d (by omega)⟩

theorem hexView_injective {d d' : Vector Byte 20} (h : hexView d = hexView d') : d = d' := by
  refine Vector.ext fun m hm => ?_
  have hhigh : hexChar (d[m].extractLsb' 4 4) = hexChar (d'[m].extractLsb' 4 4) := by
    rw [← hexView_high d hm, ← hexView_high d' hm, h]
  have hlow : hexChar (d[m].extractLsb' 0 4) = hexChar (d'[m].extractLsb' 0 4) := by
    rw [← hexView_low d hm, ← hexView_low d' hm, h]
  exact byte_eq_of_nibbles_eq (hexChar_injective hhigh) (hexChar_injective hlow)

/-- Settles O42: a character is the digit of one nibble, and a digit determines its nibble. -/
theorem hexViewIsLowercaseHex : Obligations.HexViewIsLowercaseHex := by
  refine ⟨fun d m hm => ?_, fun d i hi => ?_, fun _ _ => hexView_injective⟩
  · rw [hexView_high d hm, hexView_low d hm, hexChar_toNat, hexChar_toNat, highNibble_toNat, lowNibble_toNat]
    exact ⟨rfl, rfl⟩
  · obtain ⟨v, hv⟩ := hexView_getElem_eq_hexChar d hi
    exact hv ▸ hexChar_range v

end Sys2Proof.Machine

/-! The host command START, the loop operation NEXT and the host's moves (spec/45_sequencer_and_host.md): what they
write, and that of the pins only RST means anything to a running sequencer. -/

namespace Sys2Proof.Machine

/-! ### START (R125, R126) -/

/-- Settles O14: `beginRun` is what an accepted START answers. -/
theorem startBeginsRun : Obligations.StartBeginsRun :=
  ⟨rfl, fun _ hb => ⟨_, exec_of_answers (.startAccepted hb), rfl, rfl, rfl, rfl, rfl⟩⟩

theorem State.loopNext_setPins (s : State) (t : BitVec 7) (again after : Phase) (q : Pins) :
    { s with pins := q }.loopNext t again after = { s.loopNext t again after with pins := q } := by
  unfold State.loopNext
  split <;> rfl

theorem roundStep_setPins (f : Word → Word → Word → Word) (k : Word) (t : BitVec 7) (ht : t.toNat < 80) (s : State)
    (q : Pins) : roundStep f k t ht { s with pins := q } = { roundStep f k t ht s with pins := q } := by
  unfold roundStep
  rw [← State.loopNext_setPins]

/-- What an instruction answers to a running sequencer owes nothing to the pins (R126). -/
theorem Answers.setPins {s s' : State} {i : Instr} (hb : s.status = .busy) (ha : Answers s i s') (q : Pins) :
    Answers { s with pins := q } i { s' with pins := q } := by
  cases ha with
  | startIgnored => exact .startIgnored hb
  | startAccepted hidle => exact absurd hb hidle
  | padlenIllegal hl => exact .padlenIllegal hl
  | padlenLegal hl => exact .padlenLegal hl
  | wexp t ht =>
    rw [← State.loopNext_setPins]
    exact .wexp (s := { s with pins := q }) t ht
  | round hr =>
    rw [← roundStep_setPins]
    exact .round hr
  | nextBlock hn => exact .nextBlock hn
  | lastBlock hn => exact .lastBlock hn
  | padcalc => exact .padcalc
  | hinit => exact .hinit
  | split => exact .split
  | wload => exact .wload
  | ldwv => exact .ldwv
  | hupd => exact .hupd
  | ser => exact .ser

/-- A running sequencer that has no instruction to perform and does not fault stays as it is. -/
theorem noInstruction_setPins {e : DecodeError} {s s' : State} (h : noInstruction e s = .next s') (q : Pins) :
    noInstruction e { s with pins := q } = .next { s' with pins := q } := by
  cases e <;> cases h <;> rfl

theorem step_setPins {s s' : State} (hb : s.status = .busy) (hr : s.pins.rst = false) (h : step s = .next s')
    {q : Pins} (hq : q.rst = false) : step { s with pins := q } = .next { s' with pins := q } := by
  have hf : { s with pins := q }.fetch = s.fetch :=
    (fetch_of_busy { s with pins := q } hb).trans (fetch_of_busy s hb).symm
  cases hs : s.fetch with
  | ok i =>
    rw [step_of_fetch s i hr hs] at h
    rw [step_of_fetch _ i hq (hf.trans hs)]
    exact exec_of_answers ((answers_of_exec h).setPins hb q)
  | error e =>
    rw [step_of_no_fetch s e hr hs] at h
    rw [step_of_no_fetch _ e hq (hf.trans hs)]
    exact noInstruction_setPins h q

/-- A running sequencer faults only at an unreachable selector, whose fault names the selector alone (R82). -/
theorem step_fault_setPins {s : State} {r : Fault} (hb : s.status = .busy) (hr : s.pins.rst = false)
    (h : step s = .fault r) {q : Pins} (hq : q.rst = false) : step { s with pins := q } = .fault r := by
  by_cases hu : Unreachable s.phase s.t
  · rw [step_of_unreachable hr hb hu] at h
    exact (step_of_unreachable (s := { s with pins := q }) hq hb hu).trans h
  · obtain ⟨s', hnext⟩ := step_of_reachable hr hb hu
    cases h.symm.trans hnext

/-- Settles O15: STATUS selects the sequencer, and nothing it performs reads START or MSG_LEN. -/
theorem startWhileBusyIsIgnored : Obligations.StartWhileBusyIsIgnored := fun s p _ hb hp hq =>
  ⟨exec_of_answers (.startIgnored hb), fun _ h => step_setPins (s := { s with pins := p }) hb hp h hq,
   fun _ h => step_fault_setPins (s := { s with pins := p }) hb hp h hq⟩

/-! ### NEXT (R131) -/

/-- Below NBLK the block index does not wrap (R29). -/
theorem State.blockIndex_add_one_toNat {s : State} (hn : s.n.toNat + 1 < s.plen.toNat / 64) :
    (s.n + 1).toNat = s.n.toNat + 1 := by
  have hplen : s.plen.toNat < 2 ^ 64 := s.plen.isLt
  exact BitVec.toNat_add_of_lt (by simp; omega)

/-- Settles O38: NBLK is PLEN / 64, and the two conditions exclude each other. -/
theorem nextStepsBlockOrLeaves : Obligations.NextStepsBlockOrLeaves := by
  refine ⟨fun _ ht => decode_of_ignored_index rfl rfl (by decide) (by decide) ht, fun s => ?_⟩
  rcases exec_next_cases s with ⟨hn, he⟩ | ⟨hn, he⟩ <;> rw [nblk_toNat] at hn
  · exact ⟨_, he, rfl, fun _ => ⟨State.blockIndex_add_one_toNat hn, rfl⟩, fun hlast => absurd hn (Nat.not_lt.mpr hlast)⟩
  · exact ⟨_, he, rfl, fun hmore => absurd hmore hn, fun _ => ⟨rfl, rfl⟩⟩

/-! ### What the host does between two steps (R137) -/

theorem hostMove_writeMessage_of_not_busy {s : State} (hb : s.status ≠ .busy) {addr : BitVec 61} (v : Byte)
    (haddr : addr.toNat < s.msgCap.toNat) :
    hostMove (.writeMessage addr v) s = .next { s with msg := Memory.write s.msg addr.toNat v } :=
  (if_neg hb).trans (if_neg (Nat.not_le.mpr haddr))

/-- Settles O43: where the host may write, it writes one byte of memory. -/
theorem hostWritesOnlyWhileNotBusy : Obligations.HostWritesOnlyWhileNotBusy := fun s addr v hm =>
  ⟨fun hb => if_pos hb, fun hb haddr =>
    ⟨_, hostMove_writeMessage_of_not_busy hb v haddr, fun other => Memory.read_write s.msg addr.toNat other v hm.1,
      rfl⟩⟩

/-- The invariant does not read the pins. -/
theorem State.Inv.setPins {s : State} (hi : s.Inv) (p : Pins) : { s with pins := p }.Inv :=
  ⟨hi.memory, hi.phase, hi.index, hi.busy, hi.expanding, hi.length, hi.bits, hi.padded, hi.block⟩

/-- While no run is in progress the invariant asks of memory its canonical form and no more. -/
theorem State.Inv.writeMessage {s : State} (hi : s.Inv) (hb : s.status ≠ .busy) (addr : BitVec 61) (v : Byte) :
    { s with msg := Memory.write s.msg addr.toNat v }.Inv :=
  .of_stopped (Memory.write_wf s.msg addr.toNat v hi.memory addr.isLt) hi.index hb
    (not_not.mp (mt hi.busy.mpr hb))

/-- Settles O50: the pins are not in the invariant, a byte is written only to a stopped machine, and a read changes
nothing. -/
theorem hostMovesKeepInvariant : Obligations.HostMovesKeepInvariant := by
  intro m s s' hi h
  cases m with
  | setPins p => cases h; exact hi.setPins p
  | readPorts => cases h; exact hi
  | writeMessage addr v =>
    simp only [hostMove] at h
    split_ifs at h with hb hcap
    cases h
    exact hi.writeMessage hb addr v

end Sys2Proof.Machine

/-! The sequencer's transition table (spec/45_sequencer_and_host.md section 2): the operation of each phase, and where
it leads. -/

namespace Sys2Proof.Machine

/-! ### The operation of each phase (R31, R79) -/

section
variable {s : State} (hi : s.Inv) (hr : s.pins.rst = false)
include hi hr

/-- In a phase whose row ignores T a step answers what the operation of the row does. -/
theorem State.Inv.step_of_row {i : Instr} {p : BitVec 4} {r : State}
    (hrow : ∀ t : BitVec 7, t.toNat ≤ 79 → decode (.u p t) = .ok i) (hp : s.phase = p) (he : exec i s = .next r) :
    step s = .next r := by
  subst hp
  have hb : s.status = .busy := hi.busy.mpr fun hwait => by
    have hd := hrow 0 (by decide)
    rw [hwait] at hd
    cases hd
  exact ((stepRunsDecodedInstruction s hr).1 i hb (hrow s.t hi.index)).trans he

theorem State.Inv.step_wexp (hp : s.phase = Phase.code .wexp) :
    ∃ r, step s = .next (r.loopNext s.t .wexp .ldwv) ∧ s.SameRun r ∧ r.n = s.n := by
  have ht : 16 ≤ s.t.toNat ∧ s.t.toNat ≤ 79 := ⟨hi.expanding hp, hi.index⟩
  have hb : s.status = .busy := hi.status_of_running (by rw [hp]; decide)
  have hd : decode (.u s.phase s.t) = .ok (.wexp s.t) := hp ▸ decode_wexp ht
  have hstep := ((stepRunsDecodedInstruction s hr).1 _ hb hd).trans (exec_of_answers (.wexp s.t ht))
  exact ⟨_, hstep, ⟨rfl, rfl, rfl, rfl, rfl, rfl⟩, rfl⟩

theorem State.Inv.step_round (hp : s.phase = Phase.code .round) :
    ∃ r, step s = .next (r.loopNext s.t .round .hupd) ∧ s.SameRun r ∧ r.n = s.n := by
  obtain ⟨i, f, k, hround⟩ := RoundOf.exists_of_index_le hi.index
  obtain ⟨hd, he⟩ := hround.selected s
  have hb : s.status = .busy := hi.status_of_running (by rw [hp]; decide)
  have hstep := ((stepRunsDecodedInstruction s hr).1 i hb (hp ▸ hd)).trans he
  exact ⟨_, hstep, ⟨rfl, rfl, rfl, rfl, rfl, rfl⟩, rfl⟩

end

/-! ### The rows (R130) -/

theorem State.loopNext_row_of_not_last (s : State) {t : BitVec 7} (again after : Phase) (ht : t.toNat < 79) :
    (s.loopNext t again after).phase = again.code ∧ (s.loopNext t again after).t.toNat = t.toNat + 1 := by
  rw [State.loopNext_of_not_last _ _ _ ht]
  exact ⟨rfl, index_add_one_toNat ht⟩

theorem State.loopNext_row_of_last (s : State) {t : BitVec 7} (again after : Phase) (ht : t.toNat = 79) :
    (s.loopNext t again after).phase = after.code := by
  rw [State.loopNext_of_last _ _ _ ht]
  rfl

/-- Settles O47: each row is what the operation of its phase answers. -/
theorem transitionTableIsFollowed : Obligations.TransitionTableIsFollowed := by
  intro s s' hi h
  refine ⟨fun hr => ?_, fun hr => ?_⟩
  · cases (step_of_rst s hr).symm.trans h
    exact ⟨rfl, rfl⟩
  have row {i : Instr} {p : BitVec 4} {r : State} (hp : s.phase = p)
      (hrow : ∀ t : BitVec 7, t.toNat ≤ 79 → decode (.u p t) = .ok i) (he : exec i s = .next r) : s' = r :=
    Host.Outcome.next.inj (h.symm.trans (hi.step_of_row hr hrow hp he))
  have idle (hp : s.phase = 0x0) : s.status ≠ .busy := fun hb => hi.busy.mp hb hp
  refine ⟨?start, ?stopped, ?padlen, ?illegal, ?padcalc, ?hinit, ?split, ?wload, ?wexp, ?wexpLast, ?ldwv, ?round,
    ?roundLast, ?hupd, ?nextBlock, ?lastBlock, ?ser⟩
  case start =>
    intro hp hstart
    have hstep := ((stepRunsDecodedInstruction s hr).2 (idle hp) hstart).trans (if_neg (idle hp))
    cases h.symm.trans hstep
    exact ⟨rfl, rfl⟩
  case stopped =>
    intro hp hstart
    exact Host.Outcome.next.inj (h.symm.trans (idleMachineHoldsItsState s hr (idle hp) hstart))
  case padlen => intro hp hlen; rw [row hp padlenChecksAndScalesLength.1 (exec_padlen_of_legal hlen)]; rfl
  case illegal =>
    intro hp hlen
    rw [row hp padlenChecksAndScalesLength.1 (exec_padlen_of_illegal hlen)]
    exact ⟨rfl, rfl⟩
  case padcalc => intro hp; rw [row hp padcalcFollowsBitFormula.1 rfl]; rfl
  case hinit => intro hp; rw [row hp hinitLoadsInitialState.1 rfl]; exact ⟨rfl, rfl⟩
  case split => intro hp; rw [row hp splitLoadsBlock.1 rfl]; rfl
  case wload => intro hp; rw [row hp wloadExtractsWords.1 rfl]; exact ⟨rfl, rfl⟩
  case wexp =>
    intro hp ht
    obtain ⟨r, hstep, -, -⟩ := hi.step_wexp hr hp
    cases h.symm.trans hstep
    exact r.loopNext_row_of_not_last _ _ ht
  case wexpLast =>
    intro hp ht
    obtain ⟨r, hstep, -, -⟩ := hi.step_wexp hr hp
    cases h.symm.trans hstep
    exact r.loopNext_row_of_last _ _ ht
  case ldwv => intro hp; rw [row hp ldwvCopiesHashState.1 rfl]; exact ⟨rfl, rfl⟩
  case round =>
    intro hp ht
    obtain ⟨r, hstep, -, -⟩ := hi.step_round hr hp
    cases h.symm.trans hstep
    exact r.loopNext_row_of_not_last _ _ ht
  case roundLast =>
    intro hp ht
    obtain ⟨r, hstep, -, -⟩ := hi.step_round hr hp
    cases h.symm.trans hstep
    exact r.loopNext_row_of_last _ _ ht
  case hupd => intro hp; rw [row hp hupdAddsWorkingVariables.1 rfl]; rfl
  case nextBlock =>
    intro hp hn
    obtain ⟨r, he, -, hmore, -⟩ := nextStepsBlockOrLeaves.2 s
    obtain ⟨hindex, hphase⟩ := hmore (nblk_toNat s ▸ hn)
    rw [row hp nextStepsBlockOrLeaves.1 he]
    exact ⟨hphase, hindex⟩
  case lastBlock =>
    intro hp hn
    obtain ⟨r, he, -, -, hlast⟩ := nextStepsBlockOrLeaves.2 s
    rw [row hp nextStepsBlockOrLeaves.1 he]
    exact (hlast (nblk_toNat s ▸ hn.ge)).2
  case ser => intro hp; rw [row hp serWritesDigestAndEndsRun.1 rfl]; exact ⟨rfl, rfl⟩

end Sys2Proof.Machine

/-! The length of a run (spec/45_sequencer_and_host.md section 3, R132): a count of the operations left, which every
step of a run lowers by one. -/

namespace Sys2Proof.Machine

/-! ### The operations left -/

/-- The operations left at a phase and index `t`, SER among them, with `total` blocks in the run and `later` of them
after the current one. A block takes 149: SPLIT, WLOAD, 64 WEXP, LDWV, 80 rounds, HUPD, NEXT. -/
def opsLeftAt (total later t : Nat) : Phase → Nat
  | .wait => 0
  | .padlen => 149 * total + 4
  | .padcalc => 149 * total + 3
  | .hinit => 149 * total + 2
  | .split => 149 * later + 150
  | .wload => 149 * later + 149
  | .wexp => 149 * later + (164 - t)
  | .ldwv => 149 * later + 84
  | .round => 149 * later + (83 - t)
  | .hupd => 149 * later + 3
  | .next => 149 * later + 2
  | .ser => 1

/-- The operations left of the run of a legal length that a state is in. -/
def State.opsLeft (s : State) : Nat :=
  match Phase.ofCode s.phase with
  | some ph => opsLeftAt ((s.len.toNat + 72) / 64) ((s.len.toNat + 72) / 64 - (s.n.toNat + 1)) s.t.toNat ph
  | none => 0

theorem State.opsLeft_of_phase {s : State} {ph : Phase} (hp : s.phase = ph.code) :
    s.opsLeft = opsLeftAt ((s.len.toNat + 72) / 64) ((s.len.toNat + 72) / 64 - (s.n.toNat + 1)) s.t.toNat ph := by
  simp [State.opsLeft, hp]

theorem State.Inv.exists_phase {s : State} (hi : s.Inv) : ∃ ph : Phase, s.phase = ph.code := by
  obtain ⟨ph, hph⟩ := Option.ne_none_iff_exists'.mp
    (mt Phase.ofCode_eq_none_iff.mp (Nat.not_le.mpr (Nat.lt_succ_of_le hi.phase)))
  exact ⟨ph, Phase.eq_code_of_ofCode hph⟩

theorem State.Inv.opsLeft_eq_zero_iff {s : State} (hi : s.Inv) : s.opsLeft = 0 ↔ s.phase = Phase.code .wait := by
  refine ⟨fun h => ?_, fun hp => State.opsLeft_of_phase hp⟩
  obtain ⟨ph, hp⟩ := hi.exists_phase
  have ht : s.t.toNat ≤ 79 := hi.index
  rw [State.opsLeft_of_phase hp] at h
  cases ph with
  | wait => exact hp
  | _ => simp only [opsLeftAt] at h; omega

/-! ### One operation less (R130) -/

/-- An operation that leaves LEN and N alone lowers the count as its two positions do. -/
theorem State.opsLeft_of_sameBlock {s r : State} {ph ph' : Phase} (hp : s.phase = ph.code) (hp' : r.phase = ph'.code)
    (hlen : r.len = s.len) (hn : r.n = s.n)
    (hcount : ∀ total later, opsLeftAt total later s.t.toNat ph = opsLeftAt total later r.t.toNat ph' + 1) :
    s.opsLeft = r.opsLeft + 1 := by
  rw [State.opsLeft_of_phase hp, State.opsLeft_of_phase hp', hlen, hn]
  exact hcount _ _

/-- A loop operation lowers the count by one, at index 79 as before it. -/
theorem State.Inv.opsLeft_loopNext {s r : State} {again after : Phase} (hi : s.Inv) (hp : s.phase = again.code)
    (hlen : r.len = s.len) (hn : r.n = s.n)
    (hmore : ∀ total later t, t < 79 → opsLeftAt total later t again = opsLeftAt total later (t + 1) again + 1)
    (hlast : ∀ total later t, opsLeftAt total later 79 again = opsLeftAt total later t after + 1) :
    s.opsLeft = (r.loopNext s.t again after).opsLeft + 1 := by
  have hlen : (r.loopNext s.t again after).len = s.len := by rw [State.loopNext_len, hlen]
  have hn : (r.loopNext s.t again after).n = s.n := by rw [State.loopNext_n, hn]
  rcases Nat.lt_or_eq_of_le hi.index with ht | ht
  · obtain ⟨hphase, hindex⟩ := r.loopNext_row_of_not_last again after ht
    exact State.opsLeft_of_sameBlock hp hphase hlen hn fun _ _ => hindex ▸ hmore _ _ _ ht
  · exact State.opsLeft_of_sameBlock hp (r.loopNext_row_of_last again after ht) hlen hn fun _ _ => ht ▸ hlast _ _ _

/-- HINIT makes the first block the current one. -/
theorem State.opsLeft_hinit {s : State} (hp : s.phase = Phase.code .hinit) :
    s.opsLeft = ({ s with h := IV, n := 0 }.goto .split).opsLeft + 1 := by
  rw [State.opsLeft_of_phase hp, State.opsLeft_of_phase (ph := .split) rfl]
  show 149 * ((s.len.toNat + 72) / 64) + 2 = 149 * ((s.len.toNat + 72) / 64 - (0 + 1)) + 150 + 1
  omega

/-- NEXT makes the next block the current one, or leaves the last one for SER. -/
theorem State.Inv.opsLeft_next {s r : State} (hi : s.Inv) (hp : s.phase = Phase.code .next)
    (he : exec .next s = .next r) : s.opsLeft = r.opsLeft + 1 := by
  have hplen : s.plen.toNat / 64 = (s.len.toNat + 72) / 64 := by
    rw [hi.padded (by rw [State.pastPadcalc, hp]; decide), Nat.mul_div_cancel_left _ (by decide)]
  obtain ⟨r', he', hframe, hmore, hlast⟩ := nextStepsBlockOrLeaves.2 s
  cases he.symm.trans he'
  have hlen : r.len = s.len := by rw [hframe]
  rw [hplen] at hmore hlast
  rw [State.opsLeft_of_phase hp]
  rcases Nat.lt_or_ge (s.n.toNat + 1) ((s.len.toNat + 72) / 64) with hn | hn
  · obtain ⟨hindex, hphase⟩ := hmore hn
    rw [State.opsLeft_of_phase (ph := .split) hphase, hlen, hindex]
    simp only [opsLeftAt]
    omega
  · obtain ⟨-, hphase⟩ := hlast hn
    rw [State.opsLeft_of_phase (ph := .ser) hphase]
    simp only [opsLeftAt]
    omega

/-! ### Every step of a run -/

/-- What holds from the acceptance of a legal length to the end of its run. -/
structure State.InRun (s : State) : Prop where
  inv : s.Inv
  legal : s.len.toNat < 2 ^ 61
  status : s.status = .busy ∨ s.status = .done

theorem State.InRun.busy_of_opsLeft {s : State} (h : s.InRun) (hops : 0 < s.opsLeft) : s.status = .busy :=
  h.inv.busy.mpr fun hwait => hops.ne' (h.inv.opsLeft_eq_zero_iff.mpr hwait)

theorem State.InRun.done_of_opsLeft {s : State} (h : s.InRun) (hops : s.opsLeft = 0) :
    s.status = .done ∧ s.phase = Phase.code .wait := by
  have hwait : s.phase = Phase.code .wait := h.inv.opsLeft_eq_zero_iff.mp hops
  exact ⟨h.status.resolve_left fun hb => h.inv.busy.mp hb hwait, hwait⟩

theorem State.InRun.setPins {s : State} (h : s.InRun) (p : Pins) : { s with pins := p }.InRun :=
  ⟨h.inv.setPins p, h.legal, h.status⟩

/-- A step of a run that lowers the count: LEN is kept and STATUS is BUSY or, at the end, DONE. -/
structure State.CountsDown (s r : State) : Prop where
  length : r.len = s.len
  status : r.status = .busy ∨ r.status = .done
  count : s.opsLeft = r.opsLeft + 1

/-- The operation of a row that ignores T and leaves LEN, N and STATUS alone counts down as its two positions do. -/
theorem State.Inv.countsDown_of_row {s r : State} {i : Instr} {ph ph' : Phase} (hi : s.Inv) (hr : s.pins.rst = false)
    (hb : s.status = .busy) (hp : s.phase = ph.code)
    (hrow : ∀ t : BitVec 7, t.toNat ≤ 79 → decode (.u ph.code t) = .ok i) (he : exec i s = .next r)
    (hp' : r.phase = ph'.code)
    (hkeep : r.len = s.len ∧ r.n = s.n ∧ r.status = s.status)
    (hcount : ∀ total later, opsLeftAt total later s.t.toNat ph = opsLeftAt total later r.t.toNat ph' + 1) :
    ∃ r, step s = .next r ∧ s.CountsDown r := by
  obtain ⟨hlen, hn, hstatus⟩ := hkeep
  exact ⟨r, hi.step_of_row hr hrow hp he, hlen, .inl (hstatus.trans hb),
    State.opsLeft_of_sameBlock hp hp' hlen hn hcount⟩

/-- So does the operation of a loop. -/
theorem State.Inv.countsDown_of_loop {s r : State} {again after : Phase} (hi : s.Inv) (hb : s.status = .busy)
    (hp : s.phase = again.code) (hstep : step s = .next (r.loopNext s.t again after)) (hsame : s.SameRun r)
    (hn : r.n = s.n)
    (hmore : ∀ total later t, t < 79 → opsLeftAt total later t again = opsLeftAt total later (t + 1) again + 1)
    (hlast : ∀ total later t, opsLeftAt total later 79 again = opsLeftAt total later t after + 1) :
    ∃ r, step s = .next r ∧ s.CountsDown r :=
  ⟨_, hstep, by rw [State.loopNext_len, hsame.length], .inl (by rw [State.loopNext_status, hsame.status, hb]),
    hi.opsLeft_loopNext hp hsame.length hn hmore hlast⟩

/-- In a run the operation of every phase completes and counts down. -/
theorem State.InRun.step_countsDown {s : State} (h : s.InRun) (hr : s.pins.rst = false) (hb : s.status = .busy) :
    ∃ r, step s = .next r ∧ s.CountsDown r := by
  have hi := h.inv
  obtain ⟨ph, hp⟩ := hi.exists_phase
  cases ph with
  | wait => exact absurd hp (hi.busy.mp hb)
  | padlen =>
    exact hi.countsDown_of_row hr hb hp padlenChecksAndScalesLength.1 (exec_padlen_of_legal h.legal) (ph' := .padcalc)
      rfl (by simp) fun _ _ => rfl
  | padcalc =>
    exact hi.countsDown_of_row hr hb hp padcalcFollowsBitFormula.1 rfl (ph' := .hinit) rfl (by simp) fun _ _ => rfl
  | hinit =>
    have hstep := hi.step_of_row hr hinitLoadsInitialState.1 hp rfl
    exact ⟨_, hstep, rfl, .inl hb, State.opsLeft_hinit hp⟩
  | split =>
    exact hi.countsDown_of_row hr hb hp splitLoadsBlock.1 rfl (ph' := .wload) rfl (by simp) fun _ _ => rfl
  | wload =>
    exact hi.countsDown_of_row hr hb hp wloadExtractsWords.1 rfl (ph' := .wexp) rfl (by simp) fun _ _ => rfl
  | wexp =>
    obtain ⟨r, hstep, hsame, hn⟩ := hi.step_wexp hr hp
    refine hi.countsDown_of_loop hb hp hstep hsame hn (fun _ _ _ _ => ?_) fun _ _ _ => rfl
    simp only [opsLeftAt]
    omega
  | ldwv =>
    exact hi.countsDown_of_row hr hb hp ldwvCopiesHashState.1 rfl (ph' := .round) rfl (by simp) fun _ _ => rfl
  | round =>
    obtain ⟨r, hstep, hsame, hn⟩ := hi.step_round hr hp
    refine hi.countsDown_of_loop hb hp hstep hsame hn (fun _ _ _ _ => ?_) fun _ _ _ => rfl
    simp only [opsLeftAt]
    omega
  | hupd =>
    exact hi.countsDown_of_row hr hb hp hupdAddsWorkingVariables.1 rfl (ph' := .next) rfl (by simp) fun _ _ => rfl
  | next =>
    obtain ⟨r, he, hframe, -⟩ := nextStepsBlockOrLeaves.2 s
    have hstep := hi.step_of_row hr nextStepsBlockOrLeaves.1 hp he
    exact ⟨r, hstep, by rw [hframe], .inl (by rw [hframe, hb]), hi.opsLeft_next hp he⟩
  | ser =>
    have hstep := hi.step_of_row hr serWritesDigestAndEndsRun.1 hp rfl
    have hcount := State.opsLeft_of_sameBlock (r := endRun { s with digest := serialize s.h }) (ph' := .wait) hp rfl
      (endRun_len _) (endRun_n _) fun _ _ => rfl
    exact ⟨_, hstep, endRun_len _, .inr rfl, hcount⟩

theorem noReset_take {ps : List Pins} (hr : noReset ps) (k : Nat) : noReset (ps.take k) := fun p hp =>
  hr p (List.mem_of_mem_take hp)

/-- As many steps as are left, or fewer, lower the count by as many. -/
theorem State.InRun.runWith_opsLeft {s : State} (h : s.InRun) {ps : List Pins} (hr : noReset ps)
    (hps : ps.length ≤ s.opsLeft) :
    ∃ r, runWith ps s = .next r ∧ r.InRun ∧ s.opsLeft = r.opsLeft + ps.length := by
  induction ps generalizing s with
  | nil => exact ⟨s, rfl, h, rfl⟩
  | cons p ps ih =>
    obtain ⟨hrp, hrps⟩ := noReset_cons_iff.mp hr
    rw [List.length_cons] at hps ⊢
    have hb : s.status = .busy := h.busy_of_opsLeft (by omega)
    have hp := h.setPins p
    obtain ⟨s', hstep, hlen, hstatus, hcount⟩ := hp.step_countsDown hrp hb
    have hcount : s.opsLeft = s'.opsLeft + 1 := hcount
    have h' : s'.InRun := ⟨stepKeepsInvariant _ s' hp.inv hstep, hlen ▸ h.legal, hstatus⟩
    obtain ⟨r, hrun, hinRun, hleft⟩ := ih h' hrps (by omega)
    refine ⟨r, ?_, hinRun, by omega⟩
    rw [runWith, hstep]
    exact hrun

/-! ### From START to the end -/

/-- The state that the acceptance of START leaves, with the pins that gave it (R125). -/
def State.started (s : State) (len : Length) : State := beginRun { s with pins := startPins len }

theorem runWith_start {s : State} (hb : s.status ≠ .busy) (len : Length) (ps : List Pins) :
    runWith (startPins len :: ps) s = runWith ps (s.started len) := by
  have hstep : step { s with pins := startPins len } = .next (s.started len) :=
    ((stepRunsDecodedInstruction { s with pins := startPins len } rfl).2 hb rfl).trans
      (exec_of_answers (.startAccepted hb))
  rw [runWith, hstep]

theorem State.Inv.started {s : State} (hi : s.Inv) (len : Length) : (s.started len).Inv :=
  (hi.setPins (startPins len)).beginRun

/-- An illegal length ends in ERROR after PADLEN (R142). -/
theorem State.Inv.runWith_illegal {s : State} (hi : s.Inv) (hb : s.status ≠ .busy) {len : Length}
    (hlen : 2 ^ 61 ≤ len.toNat) {p : Pins} (hr : p.rst = false) :
    runWith [startPins len, p] s = .next (raiseInvalidLength { s.started len with pins := p }) := by
  rw [runWith_start hb]
  exact runWith_cons_of_decode [] hr rfl (padlenChecksAndScalesLength.1 s.t hi.index) (exec_padlen_of_illegal hlen)

/-- Settles O52: START leaves 4 + 149 NBLK operations, each step takes one off, and the machine is BUSY as long as any
is left. -/
theorem runEndsAfterExactCount : Obligations.RunEndsAfterExactCount := by
  refine fun s len hi hb => ⟨fun ps hlen hr hps => ?_, fun p hlen hr => ⟨⟨_, runWith_start hb len [], rfl⟩, ?_⟩⟩
  · have hrun : (s.started len).InRun := ⟨hi.started len, hlen, .inl rfl⟩
    have hops : (s.started len).opsLeft = ps.length := by
      rw [State.opsLeft_of_phase (ph := .padlen) rfl, hps]
      exact Nat.add_comm _ _
    refine ⟨?_, fun k hk => ?_⟩
    · obtain ⟨s', hs', hend, hleft⟩ := hrun.runWith_opsLeft hr hops.ge
      exact ⟨s', (runWith_start hb len ps).trans hs', hend.done_of_opsLeft (by omega)⟩
    · have htake : (ps.take k).length = k := List.length_take_of_le hk.le
      obtain ⟨s', hs', hmid, hleft⟩ := hrun.runWith_opsLeft (noReset_take hr k) (by omega)
      exact ⟨s', (runWith_start hb len _).trans hs', hmid.busy_of_opsLeft (by omega)⟩
  · exact ⟨_, hi.runWith_illegal hb hlen hr, rfl, rfl⟩

end Sys2Proof.Machine

/-! What a run computes (spec/45_sequencer_and_host.md section 4): H holds the blocks folded so far at every NEXT, and
SER leaves the digest of the message in memory, whatever the registers and the pins held before. -/

namespace Sys2Proof.Machine

/-! ### What every run keeps -/

/-- What neither the pins nor a step breaks holds at the end of a run. -/
theorem runWith_invariant {P : State → Prop} (hpins : ∀ s p, P s → P { s with pins := p })
    (hstep : ∀ s r, P s → step s = .next r → P r) {s r : State} {ps : List Pins} (hs : P s)
    (h : runWith ps s = .next r) : P r := by
  induction ps generalizing s with
  | nil => cases h; exact hs
  | cons p ps ih =>
    rw [runWith] at h
    cases hp : step { s with pins := p } with
    | next s' => rw [hp] at h; exact ih (hstep _ s' (hpins s p hs) hp) h
    | fault e => rw [hp] at h; cases h
    | refused e => rw [hp] at h; cases h

theorem State.Inv.of_runWith {s r : State} (hi : s.Inv) {ps : List Pins} (h : runWith ps s = .next r) : r.Inv :=
  runWith_invariant (fun _ p hs => hs.setPins p) stepKeepsInvariant hi h

theorem runWith_memory {s r : State} {ps : List Pins} (h : runWith ps s = .next r) :
    r.msg = s.msg ∧ r.msgCap = s.msgCap := by
  refine runWith_invariant (P := fun r => r.msg = s.msg ∧ r.msgCap = s.msgCap) (fun _ _ hs => hs)
    (fun r r' hr hstep => ?_) ⟨rfl, rfl⟩ h
  obtain ⟨hmsg, -, hcap⟩ := stepLeavesMessageMemory r r' hstep
  exact ⟨hmsg.trans hr.1, hcap.trans hr.2⟩

theorem noReset_drop {ps : List Pins} (hr : noReset ps) (k : Nat) : noReset (ps.drop k) := fun p hp =>
  hr p (List.mem_of_mem_drop hp)

/-- A run goes on from where its first `k` steps end. -/
theorem runWith_of_take {s r : State} {ps : List Pins} {k : Nat} (h : runWith (ps.take k) s = .next r) :
    runWith ps s = runWith (ps.drop k) r := by
  rw [← runWith_append _ h, List.take_append_drop]

/-- In a phase whose row ignores T a run goes on from what the operation of the row answers. -/
theorem State.Inv.runWith_row {s r : State} (hi : s.Inv) {q : BitVec 4} (hp : s.phase = q) {i : Instr}
    (hrow : ∀ t : BitVec 7, t.toNat ≤ 79 → decode (.u q t) = .ok i) {p : Pins} (hr : p.rst = false)
    (he : exec i { s with pins := p } = .next r) (ps : List Pins) : runWith (p :: ps) s = runWith ps r ∧ r.Inv := by
  have hstep := (hi.setPins p).step_of_row hr hrow hp he
  exact ⟨by rw [runWith, hstep], stepKeepsInvariant _ r (hi.setPins p) hstep⟩

/-! ### The hash of the first blocks -/

/-- H after `k` blocks of a message (R119, R134). -/
def hashAfter (m : List Byte) (k : Nat) : Vector Word 5 := ((blocks m).take k).foldl compress IV

/-- NBLK of a message (R27, R94). -/
def blockCount (m : List Byte) : Nat := paddedLength m.length / 64

theorem blocks_getElem?_of_lt {m : List Byte} {k : Nat} (hk : k < blockCount m) :
    (blocks m)[k]? = some (blockOf (pad m) k) := by
  rw [blockCount] at hk
  simp [blocks, hk]

theorem hashAfter_succ {m : List Byte} {k : Nat} (hk : k < blockCount m) :
    hashAfter m (k + 1) = compress (hashAfter m k) (blockOf (pad m) k) := by
  rw [hashAfter, List.take_add_one, blocks_getElem?_of_lt hk, List.foldl_append]
  rfl

theorem serialize_hashAfter (m : List Byte) : serialize (hashAfter m (blockCount m)) = hashMessage m := by
  rw [hashAfter, List.take_of_length_le (by simp [blocks, blockCount]), hashMessage]

/-! ### A run on a message -/

/-- A state of a run whose message is `m`, all of it memory that the platform provides. -/
structure State.RunsOn (s : State) (m : List Byte) : Prop where
  inv : s.Inv
  held : message s.msg s.len.toNat = m
  provided : s.len.toNat ≤ s.msgCap.toNat

theorem State.RunsOn.of_runWith {s r : State} {m : List Byte} (h : s.RunsOn m) {ps : List Pins}
    (hrun : runWith ps s = .next r) (hlen : r.len = s.len) : r.RunsOn m := by
  obtain ⟨hmsg, hcap⟩ := runWith_memory hrun
  exact ⟨h.inv.of_runWith hrun, by rw [hmsg, hlen, h.held], by rw [hlen, hcap]; exact h.provided⟩

theorem State.RunsOn.nblk_eq {s : State} {m : List Byte} (h : s.RunsOn m) (hs : s.pastPadcalc) :
    s.plen.toNat / 64 = blockCount m := by
  rw [h.inv.padded hs, blockCount, paddedLength, ← h.held, message_length]

/-- SPLIT's block is the block of the padded message that N counts (R96, R101). -/
theorem State.RunsOn.nextBlock_toList {s : State} {m : List Byte} (h : s.RunsOn m) (hs : s.inBlockLoop) :
    (nextBlock s).toList = blockOf (pad m) s.n.toNat := by
  have hpast : s.pastPadcalc := Nat.le_of_succ_le hs.1
  have hplen := h.inv.padded hpast
  have hn := h.inv.block hs
  have hlength : (pad m).length = s.plen.toNat := by rw [pad_length, hplen, paddedLength, ← h.held, message_length]
  apply List.ext_getElem
  · rw [Vector.length_toList, blockOf_length (by omega)]
  intro k hk hk'
  have hk : k < 64 := by simpa using hk
  have hbyte := padByteIsByteOfPaddedMessage s (64 * s.n.toNat + k) h.provided
    (h.inv.bits (Nat.le_of_succ_le hpast)) hplen (by omega)
  rw [h.held, ← blockOf_getElem? _ _ hk, List.getElem?_eq_getElem hk', Option.some.injEq] at hbyte
  rw [hbyte, Vector.getElem_toList, nextBlock_getElem]

/-- A run on `m` at the phase `ph` with `k` blocks folded into H. -/
structure State.Hashed (s : State) (m : List Byte) (ph : Phase) (k : Nat) : Prop extends s.RunsOn m where
  phase : s.phase = ph.code
  hash : s.h = hashAfter m k

/-- PADLEN, PADCALC and HINIT, after which no block is folded. -/
theorem State.RunsOn.runWith_init {s : State} {m : List Byte} (h : s.RunsOn m) (hp : s.phase = Phase.code .padlen)
    {ps : List Pins} (hr : noReset ps) (hps : ps.length = 3) :
    ∃ r, runWith ps s = .next r ∧ r.Hashed m .split 0 ∧ r.n.toNat = 0 := by
  have hlegal : s.len.toNat < 2 ^ 61 := Nat.lt_of_le_of_lt h.provided s.msgCap.isLt
  obtain ⟨p, q, o, rfl⟩ := List.length_eq_three.mp hps
  obtain ⟨hrp, hr⟩ := noReset_cons_iff.mp hr
  obtain ⟨hrq, hr⟩ := noReset_cons_iff.mp hr
  obtain ⟨hro, -⟩ := noReset_cons_iff.mp hr
  obtain ⟨hpadlen, hi⟩ :=
    h.inv.runWith_row hp padlenChecksAndScalesLength.1 hrp (exec_padlen_of_legal hlegal) [q, o]
  obtain ⟨hpadcalc, hi⟩ := hi.runWith_row rfl padcalcFollowsBitFormula.1 hrq rfl [o]
  obtain ⟨hhinit, -⟩ := hi.runWith_row rfl hinitLoadsInitialState.1 hro rfl []
  have hrun := hpadlen.trans (hpadcalc.trans hhinit)
  exact ⟨_, hrun, ⟨h.of_runWith hrun (by simp), rfl, rfl⟩, rfl⟩

theorem nextBlock_setPins (s : State) (p : Pins) : nextBlock { s with pins := p } = nextBlock s := rfl

/-- SPLIT loads `nextBlock` (R100). -/
theorem exec_split_blk (s : State) : ∃ r, exec .split s = .next r ∧ r.blk = nextBlock s ∧ r.phase = Phase.code .wload ∧
    r = { s with blk := r.blk, phase := r.phase, draws := r.draws } :=
  ⟨_, rfl, rfl, rfl, rfl⟩

/-- SPLIT, and the 147 operations that fold its block into H. -/
theorem State.Hashed.runWith_block {s : State} {m : List Byte} (h : s.Hashed m .split s.n.toNat) {ps : List Pins}
    (hr : noReset ps) (hps : ps.length = 148) :
    ∃ r, runWith ps s = .next r ∧ r.Hashed m .next (s.n.toNat + 1) ∧ r.n = s.n := by
  have hloop : s.inBlockLoop := by rw [State.inBlockLoop, h.phase]; decide
  have hn : s.n.toNat < blockCount m := h.nblk_eq (Nat.le_of_succ_le hloop.1) ▸ h.inv.block hloop
  have hb : s.status = .busy := h.inv.status_of_running (by rw [h.phase]; decide)
  obtain ⟨p, ps, rfl⟩ := List.exists_cons_of_length_eq_add_one hps
  obtain ⟨hrp, hrps⟩ := noReset_cons_iff.mp hr
  obtain ⟨r₁, he, hblk, hphase₁, hframe₁⟩ := exec_split_blk { s with pins := p }
  obtain ⟨hsplit, hi⟩ := h.inv.runWith_row h.phase splitLoadsBlock.1 hrp he ps
  have hb₁ : r₁.status = .busy := by rw [hframe₁]; exact hb
  have hh₁ : r₁.h = s.h := by rw [hframe₁]
  obtain ⟨r, hrest, hh, hphase, hframe⟩ := blockOperationsCompress r₁ ps hb₁ hphase₁ hi.index hrps (Nat.succ.inj hps)
  have hrun := hsplit.trans hrest
  have hlen : r.len = s.len := by rw [hframe, hframe₁]
  have hindex : r.n = s.n := by rw [hframe, hframe₁]
  have hhash : r.h = hashAfter m (s.n.toNat + 1) := by
    rw [hh, hh₁, hblk, nextBlock_setPins, h.nextBlock_toList hloop, h.hash, hashAfter_succ hn]
  exact ⟨r, hrun, ⟨h.of_runWith hrun hlen, hphase, hhash⟩, hindex⟩

/-- NEXT goes to the next block, or from the last to SER with all of them folded. -/
theorem State.Hashed.runWith_next {s : State} {m : List Byte} (h : s.Hashed m .next (s.n.toNat + 1)) {p : Pins}
    (hr : p.rst = false) :
    ∃ r, runWith [p] s = .next r ∧
      ((s.n.toNat + 1 < blockCount m ∧ r.n.toNat = s.n.toNat + 1 ∧ r.Hashed m .split r.n.toNat) ∨
        (s.n.toNat + 1 = blockCount m ∧ r.Hashed m .ser (blockCount m))) := by
  have hloop : s.inBlockLoop := by rw [State.inBlockLoop, h.phase]; decide
  have hnblk := h.nblk_eq (Nat.le_of_succ_le hloop.1)
  have hn : s.n.toNat < blockCount m := hnblk ▸ h.inv.block hloop
  obtain ⟨r, he, hframe, hmore, hlast⟩ := nextStepsBlockOrLeaves.2 { s with pins := p }
  have hrun := (h.inv.runWith_row h.phase nextStepsBlockOrLeaves.1 hr he []).1
  have hon : r.RunsOn m := h.of_runWith hrun (by rw [hframe])
  have hhash : r.h = hashAfter m (s.n.toNat + 1) := by rw [← h.hash, hframe]
  refine ⟨r, hrun, ?_⟩
  rcases Nat.lt_or_eq_of_le (Nat.succ_le_of_lt hn) with hlt | heq
  · obtain ⟨hindex, hphase⟩ := hmore (hnblk ▸ hlt)
    exact .inl ⟨hlt, hindex, hon, hphase, hindex ▸ hhash⟩
  · obtain ⟨-, hphase⟩ := hlast (hnblk ▸ heq.ge)
    exact .inr ⟨heq, hon, hphase, heq ▸ hhash⟩

/-- The 149 operations of a block. -/
theorem State.Hashed.runWith_body {s : State} {m : List Byte} (h : s.Hashed m .split s.n.toNat) {ps : List Pins}
    (hr : noReset ps) (hps : 149 ≤ ps.length) :
    ∃ r, runWith ps s = runWith (ps.drop 149) r ∧
      ((s.n.toNat + 1 < blockCount m ∧ r.n.toNat = s.n.toNat + 1 ∧ r.Hashed m .split r.n.toNat) ∨
        (s.n.toNat + 1 = blockCount m ∧ r.Hashed m .ser (blockCount m))) := by
  obtain ⟨r, hblock, hhashed, hn⟩ := h.runWith_block (noReset_take hr 148) (List.length_take_of_le (by omega))
  rw [← hn] at hhashed ⊢
  have hq : ps.drop 148 = ps[148] :: ps.drop 149 := List.drop_eq_getElem_cons (by omega)
  obtain ⟨r', hnext, hcases⟩ := hhashed.runWith_next (hr ps[148] (List.getElem_mem _))
  have hrest := runWith_append (ps.drop 149) hnext
  exact ⟨r', (runWith_of_take hblock).trans (hq ▸ hrest), hcases⟩

/-- SER serializes the hash of all blocks (R120). -/
theorem State.Hashed.runWith_ser {s : State} {m : List Byte} (h : s.Hashed m .ser (blockCount m)) {ps : List Pins}
    (hr : noReset ps) (hps : ps.length = 1) :
    ∃ r, runWith ps s = .next r ∧ r.status = .done ∧ r.digest = hashMessage m := by
  obtain ⟨p, rfl⟩ := List.length_eq_one_iff.mp hps
  have hrun := (h.inv.runWith_row h.phase serWritesDigestAndEndsRun.1 (hr p (List.mem_singleton_self p)) rfl []).1
  refine ⟨_, hrun, rfl, ?_⟩
  rw [← serialize_hashAfter, ← h.hash]
  rfl

/-- The block loop from SPLIT, with `k` blocks after the current one, and SER after it. -/
theorem State.Hashed.runWith_blocks {s : State} {m : List Byte} {k : Nat} (h : s.Hashed m .split s.n.toNat)
    (hk : s.n.toNat + 1 + k = blockCount m) {ps : List Pins} (hr : noReset ps) (hps : ps.length = 149 * (k + 1) + 1) :
    ∃ r, runWith ps s = .next r ∧ r.status = .done ∧ r.digest = hashMessage m := by
  induction k generalizing s ps with
  | zero =>
    obtain ⟨r, hbody, ⟨hlt, -⟩ | ⟨-, hser⟩⟩ := h.runWith_body hr (by omega)
    · omega
    · rw [hbody]
      exact hser.runWith_ser (noReset_drop hr 149) (by simp [hps])
  | succ k ih =>
    obtain ⟨r, hbody, ⟨-, hn, hnext⟩ | ⟨heq, -⟩⟩ := h.runWith_body hr (by omega)
    · rw [hbody]
      exact ih hnext (by omega) (noReset_drop hr 149) (by rw [List.length_drop]; omega)
    · omega

/-! ### The digest -/

/-- A run from START on a message that the platform holds ends in DONE with the digest of the message (R134). -/
theorem State.Inv.runWith_digest {s : State} (hi : s.Inv) (hb : s.status ≠ .busy) {len : Length}
    (hlen : len.toNat ≤ s.msgCap.toNat) {ps : List Pins} (hr : noReset ps)
    (hps : ps.length = 4 + 149 * (paddedLength len.toNat / 64)) :
    ∃ r, runWith (startPins len :: ps) s = .next r ∧ r.status = .done ∧
      r.digest = hashMessage (message s.msg len.toNat) := by
  have hon : (s.started len).RunsOn (message s.msg len.toNat) := ⟨hi.started len, rfl, hlen⟩
  have hcount : blockCount (message s.msg len.toNat) = paddedLength len.toNat / 64 := by
    rw [blockCount, message_length]
  have hpos : 1 ≤ paddedLength len.toNat / 64 := by
    rw [paddedLength, Nat.mul_div_cancel_left _ (by decide)]
    omega
  obtain ⟨r, hinit, hsplit, hn⟩ := hon.runWith_init rfl (noReset_take hr 3) (List.length_take_of_le (by omega))
  rw [runWith_start hb, runWith_of_take hinit]
  rw [← hn] at hsplit
  exact hsplit.runWith_blocks (k := paddedLength len.toNat / 64 - 1) (by omega) (noReset_drop hr 3)
    (by rw [List.length_drop]; omega)

/-- Settles O53: the digest of a run is that of the message, a run leaves memory alone, and PADLEN rejects an illegal
length. -/
theorem runComputesDigest : Obligations.RunComputesDigest := by
  refine fun s len hi hb => ⟨fun ps hlen hr hps => ?_, fun p hlen hr => ?_⟩
  · obtain ⟨r, hrun, hdone, hdigest⟩ := hi.runWith_digest hb hlen hr hps
    exact ⟨r, hrun, hdone, fun read => (readDigest_of_done hdone read).trans hdigest, (runWith_memory hrun).1⟩
  · exact ⟨_, hi.runWith_illegal hb hlen hr, rfl, rfl⟩

theorem message_eq_of_read_eq {mem mem' : Memory} {len : Nat}
    (h : ∀ addr < len, Memory.read mem addr = Memory.read mem' addr) : message mem len = message mem' len :=
  List.map_congr_left fun addr haddr => h addr (List.mem_range.mp haddr)

/-- Settles O54: the digest is a function of the message alone, and an illegal length ends every run in ERROR. -/
theorem runsAreIndependentOfHistory : Obligations.RunsAreIndependentOfHistory := by
  intro s r len ps qs hs hr hsb hrb hread hps hqs
  refine ⟨fun hslen hrlen heq hlength => ?_, fun hlen hps1 hqs1 => ?_⟩
  · obtain ⟨s', hsrun, hsdone, hsdigest⟩ := hs.runWith_digest hsb hslen hps hlength
    obtain ⟨r', hrrun, hrdone, hrdigest⟩ := hr.runWith_digest hrb hrlen hqs (heq ▸ hlength)
    rw [← message_eq_of_read_eq hread] at hrdigest
    exact ⟨s', r', hsrun, hrrun, hsdone.trans hrdone.symm, hsdigest.trans hrdigest.symm⟩
  · obtain ⟨p, rfl⟩ := List.length_eq_one_iff.mp hps1
    obtain ⟨q, rfl⟩ := List.length_eq_one_iff.mp hqs1
    exact ⟨_, _, hs.runWith_illegal hsb hlen (hps p (List.mem_singleton_self p)),
      hr.runWith_illegal hrb hlen (hqs q (List.mem_singleton_self q)), rfl, rfl⟩

/-! ### The known answers (R135) -/

/-- Settles O55: `hashMessage` evaluated by the kernel on the three messages. -/
theorem knownAnswersHold : Obligations.KnownAnswersHold := by
  unfold Obligations.KnownAnswersHold
  refine ⟨?empty, ?abc, ?fox⟩
  case empty => decide +kernel
  case abc => decide +kernel
  case fox => decide +kernel

end Sys2Proof.Machine

/-! The one exception, InvalidLength (spec/60_exceptions.md): what its entry writes, and that the same length raises
it again; with no other stop, every step from a state of the invariant answers a next state. -/

namespace Sys2Proof.Machine

/-! ### Entry and exit (R142, R143) -/

/-- Settles O17: PADLEN rejects an illegal length whatever memory holds, and `raiseInvalidLength` writes STATUS and
PHASE. -/
theorem invalidLengthEntryIsPrecise : Obligations.InvalidLengthEntryIsPrecise := fun _ hlen =>
  ⟨_, exec_padlen_of_illegal hlen, rfl, rfl, rfl, rfl, fun _ => exec_padlen_of_illegal hlen⟩

/-- Settles O18: the exception ends in a stopped state of the invariant, from which the same run begins again. -/
theorem illegalLengthEndsInErrorAndRepeats : Obligations.IllegalLengthEndsInErrorAndRepeats := by
  intro s len p q hi hb hlen hp hq
  have hfirst := hi.runWith_illegal hb hlen hp
  have hagain := (hi.of_runWith hfirst).runWith_illegal (by simp) hlen hq
  exact ⟨hfirst, (runWith_append [startPins len, q] hfirst).trans hagain⟩

/-! ### Every step completes (R141, R167) -/

/-- A stopped machine accepts START or stays as it is (R78, R125). -/
theorem step_of_not_busy {s : State} (hr : s.pins.rst = false) (hb : s.status ≠ .busy) : ∃ s', step s = .next s' := by
  cases hstart : s.pins.start with
  | true =>
    have hstep := (stepRunsDecodedInstruction s hr).2 hb hstart
    exact ⟨beginRun s, hstep.trans (exec_of_answers (.startAccepted hb))⟩
  | false => exact ⟨s, idleMachineHoldsItsState s hr hb hstart⟩

/-- Settles O51: RST resets, a stopped machine completes, and a running one faults at unreachable selectors alone,
which the invariant excludes. -/
theorem machineNeverStops : Obligations.MachineNeverStops := by
  intro s hi
  cases hr : s.pins.rst with
  | true => exact ⟨takeReset s, step_of_rst s hr⟩
  | false =>
    by_cases hb : s.status = .busy
    · exact step_of_reachable hr hb hi.reachable
    · exact step_of_not_busy hr hb

end Sys2Proof.Machine

/-! Reset at a step (R155): what `takeReset` leaves behind, and that the machine then waits for START. -/

namespace Sys2Proof.Machine

/-- Settles O11: a step with RST high answers `takeReset`, a stopped state whatever its free registers hold, and a
stopped machine without RST and START stays as it is. -/
theorem resetOverridesEverything : Obligations.ResetOverridesEverything := by
  intro s hr
  have hidle : (takeReset s).status ≠ .busy := by simp
  have hdigest : (takeReset s).digestValid = false :=
    Bool.eq_false_iff.mpr fun hv => by simpa using (digestValid_iff _).mp hv
  exact ⟨takeReset s, step_of_rst s hr, rfl, rfl, hdigest, takeReset_index_le s, rfl, rfl, rfl,
    fun p hrst hstart => idleMachineHoldsItsState { takeReset s with pins := p } hrst hidle hstart⟩

end Sys2Proof.Machine
